-- ==== Sys2Proof/Word.lean ====
section
/-! DEFINITION. The word types of VP8: bytes, 16-bit words, and the text of a source line. -/

namespace Sys2Proof

/-- An 8-bit register, flag source or memory cell (R5 REG_WIDTH, R20, R31). -/
abbrev Byte := BitVec 8

/-- A 16-bit quantity: an address, SP16, or the operand value of an instruction record (R5, R76). -/
abbrev Half := BitVec 16

/-- A source line, an operand field or a label name: a finite sequence of characters (R7). -/
abbrev Text := List Char

end Sys2Proof
end

