-- ==== Sys2Proof/Config.lean ====
section
/-! DEFINITION. What an implementation of VP8 fixes (the parameters of R5) and the free values, which the spec leaves
to the environment. A constant declared `opaque` has no body here: nothing can be proved about its value. -/

namespace Sys2Proof
namespace Config

/-- ENTROPY_ADDR (R5, R47): the cell the post-instruction phase refreshes with a random byte. -/
def entropyAddr : Half := 0x00FE#16

/-- KEY_ADDR (R5, R48): the cell that receives a key code. -/
def keyAddr : Half := 0x00FF#16

/-- STACK_TOP (R5): SP16 at reset, and the value at which a pull faults. -/
def stackTop : Half := 0x01FF#16

/-- STACK_LIMIT (R5, conflict C4): the value of SP16 at which a push faults. -/
def stackLimit : Half := 0x00FF#16

/-- SCREEN_BASE (R5, conflict C5): the first address of the window the host may read. -/
def screenBase : Nat := 0x0100

/-- SCREEN_LEN (R5): how many cells that window has. -/
def screenLen : Nat := 0x4000

/-- SENTINEL (R5): the IR value of a Relative or Implied operand. -/
def sentinel : Half := 0xFFFF#16

/-- IMEM_DEPTH (R5, D19), OPEN: the most instruction records a program may have, or `none` where there is no bound.
Log entry 5. -/
opaque imemDepth : Option Nat

/-- CALL_STACK_DEPTH (R5, R30, D18), OPEN: the call stack's capacity, or `none` where it is unbounded. Log entry 5. -/
opaque callStackDepth : Option Nat

/-- Free value (R12, R47, D41): the byte the `n`-th post-instruction phase draws. Log entry 2. -/
opaque entropy : Nat → Byte

/-- Free value (R13, R48, D42): whether the `n`-th post-instruction phase sees a key event, and its code. Log entry 2. -/
opaque keyEvent : Nat → Option Byte

/-- Free value (R34): the byte M[0x00FE] holds at reset, "any byte (a draw)". Log entry 3. -/
opaque entropyAtReset : Byte

end Config
end Sys2Proof
end

