-- ==== Sys2Proof/Syntax.lean ====
section
/-! DEFINITION. The syntax of VP8: addressing modes, operands, opcodes, and `Instr`, the decoded instruction (one
constructor per row of the opcode table). -/

namespace Sys2Proof

/-- The eleven addressing modes, in the source's order (R78). -/
inductive Mode where
  | immediate | zeroPage | zeroPageX | zeroPageY | absolute | absoluteX | absoluteY
  | indirectX | indirectY | relative | implied
  deriving DecidableEq, Repr

/-- An operand as the lexer delivers it: a mode together with the value that mode carries (R64). A byte for the forms
of two hexadecimal digits, a 16-bit word for the forms of four, and nothing for Relative and Implied, whose value is
the sentinel. -/
inductive Operand where
  /-- `#$hh` -/
  | immediate (v : Byte)
  /-- `$hh` -/
  | zeroPage (v : Byte)
  /-- `$hh,X` -/
  | zeroPageX (v : Byte)
  /-- `$hh,Y` -/
  | zeroPageY (v : Byte)
  /-- `$hhhh` -/
  | absolute (v : Half)
  /-- `$hhhh,X` -/
  | absoluteX (v : Half)
  /-- `$hhhh,Y` -/
  | absoluteY (v : Half)
  /-- `($hh,X)` -/
  | indirectX (v : Byte)
  /-- `($hh),Y` -/
  | indirectY (v : Byte)
  /-- a label reference; the name stands in the instruction -/
  | relative
  /-- no operand -/
  | implied
  deriving DecidableEq, Repr

/-- The opcode field of an instruction record (R70, R77): the 55 mnemonics and the pseudo-opcode LABEL. -/
inductive Opcode where
  | adc | and | asl | bcc | bcs | beq | bit | bmi | bne | bpl | brk | bvc | bvs | clc
  | cld | cli | clv | cmp | cpx | cpy | dec | dex | dey | drw | eor | inc | inx | iny
  | jmp | jsr | lda | ldx | ldy | lsr | nop | ora | pha | pla | rol | ror | rti | rts
  | sbc | sec | sed | sei | sta | stx | sty | tax | tay | tsx | txa | txs | tya | label
  deriving DecidableEq, Repr

/-- A decoded instruction (R76), one constructor per row of the opcode table. `o` is the record's mode and value, `l`
the label name of one of the ten control-transfer opcodes (R71, R75). A constructor admits every operand the decoder
can deliver with its opcode; which pairs may run is the verifier's business (R85). -/
inductive Instr where
  /-- ADC (R150) -/
  | adc (o : Operand)
  /-- AND (R152) -/
  | and (o : Operand)
  /-- ASL (R170) -/
  | asl (o : Operand)
  /-- BCC (R135) -/
  | bcc (o : Operand) (l : Text)
  /-- BCS (R136) -/
  | bcs (o : Operand) (l : Text)
  /-- BEQ (R137) -/
  | beq (o : Operand) (l : Text)
  /-- BIT (R155) -/
  | bit (o : Operand)
  /-- BMI (R139) -/
  | bmi (o : Operand) (l : Text)
  /-- BNE (R138) -/
  | bne (o : Operand) (l : Text)
  /-- BPL (R140) -/
  | bpl (o : Operand) (l : Text)
  /-- BRK (R238) -/
  | brk (o : Operand)
  /-- BVC (R141) -/
  | bvc (o : Operand) (l : Text)
  /-- BVS (R142) -/
  | bvs (o : Operand) (l : Text)
  /-- CLC (R230) -/
  | clc (o : Operand)
  /-- CLD (R235) -/
  | cld (o : Operand)
  /-- CLI (R232) -/
  | cli (o : Operand)
  /-- CLV (R234) -/
  | clv (o : Operand)
  /-- CMP (R175) -/
  | cmp (o : Operand)
  /-- CPX (R176) -/
  | cpx (o : Operand)
  /-- CPY (R177) -/
  | cpy (o : Operand)
  /-- DEC (R179) -/
  | dec (o : Operand)
  /-- DEX (R182) -/
  | dex (o : Operand)
  /-- DEY (R183) -/
  | dey (o : Operand)
  /-- DRW (R240) -/
  | drw (o : Operand)
  /-- EOR (R154) -/
  | eor (o : Operand)
  /-- INC (R178) -/
  | inc (o : Operand)
  /-- INX (R180) -/
  | inx (o : Operand)
  /-- INY (R181) -/
  | iny (o : Operand)
  /-- JMP (R133) -/
  | jmp (o : Operand) (l : Text)
  /-- JSR (R131) -/
  | jsr (o : Operand) (l : Text)
  /-- LDA (R200) -/
  | lda (o : Operand)
  /-- LDX (R201) -/
  | ldx (o : Operand)
  /-- LDY (R202) -/
  | ldy (o : Operand)
  /-- LSR (R171) -/
  | lsr (o : Operand)
  /-- NOP (R237) -/
  | nop (o : Operand)
  /-- ORA (R153) -/
  | ora (o : Operand)
  /-- PHA (R212) -/
  | pha (o : Operand)
  /-- PLA (R213) -/
  | pla (o : Operand)
  /-- ROL (R172) -/
  | rol (o : Operand)
  /-- ROR (R173) -/
  | ror (o : Operand)
  /-- RTI (R134) -/
  | rti (o : Operand)
  /-- RTS (R132) -/
  | rts (o : Operand)
  /-- SBC (R151) -/
  | sbc (o : Operand)
  /-- SEC (R231) -/
  | sec (o : Operand)
  /-- SED (R236) -/
  | sed (o : Operand)
  /-- SEI (R233) -/
  | sei (o : Operand)
  /-- STA (R203) -/
  | sta (o : Operand)
  /-- STX (R204) -/
  | stx (o : Operand)
  /-- STY (R205) -/
  | sty (o : Operand)
  /-- TAX (R206) -/
  | tax (o : Operand)
  /-- TAY (R208) -/
  | tay (o : Operand)
  /-- TSX (R210) -/
  | tsx (o : Operand)
  /-- TXA (R207) -/
  | txa (o : Operand)
  /-- TXS (R211) -/
  | txs (o : Operand)
  /-- TYA (R209) -/
  | tya (o : Operand)
  /-- LABEL, from a label line `n:` (R239); its mode and value are the placeholders of R73 -/
  | label (n : Text)
  deriving DecidableEq, Repr

/-- The operand's addressing mode. -/
def Operand.mode : Operand → Mode
  | .immediate _ => .immediate
  | .zeroPage _ => .zeroPage
  | .zeroPageX _ => .zeroPageX
  | .zeroPageY _ => .zeroPageY
  | .absolute _ => .absolute
  | .absoluteX _ => .absoluteX
  | .absoluteY _ => .absoluteY
  | .indirectX _ => .indirectX
  | .indirectY _ => .indirectY
  | .relative => .relative
  | .implied => .implied

/-- The opcode of an instruction. -/
def Instr.opcode : Instr → Opcode
  | .adc _ => .adc
  | .and _ => .and
  | .asl _ => .asl
  | .bcc _ _ => .bcc
  | .bcs _ _ => .bcs
  | .beq _ _ => .beq
  | .bit _ => .bit
  | .bmi _ _ => .bmi
  | .bne _ _ => .bne
  | .bpl _ _ => .bpl
  | .brk _ => .brk
  | .bvc _ _ => .bvc
  | .bvs _ _ => .bvs
  | .clc _ => .clc
  | .cld _ => .cld
  | .cli _ => .cli
  | .clv _ => .clv
  | .cmp _ => .cmp
  | .cpx _ => .cpx
  | .cpy _ => .cpy
  | .dec _ => .dec
  | .dex _ => .dex
  | .dey _ => .dey
  | .drw _ => .drw
  | .eor _ => .eor
  | .inc _ => .inc
  | .inx _ => .inx
  | .iny _ => .iny
  | .jmp _ _ => .jmp
  | .jsr _ _ => .jsr
  | .lda _ => .lda
  | .ldx _ => .ldx
  | .ldy _ => .ldy
  | .lsr _ => .lsr
  | .nop _ => .nop
  | .ora _ => .ora
  | .pha _ => .pha
  | .pla _ => .pla
  | .rol _ => .rol
  | .ror _ => .ror
  | .rti _ => .rti
  | .rts _ => .rts
  | .sbc _ => .sbc
  | .sec _ => .sec
  | .sed _ => .sed
  | .sei _ => .sei
  | .sta _ => .sta
  | .stx _ => .stx
  | .sty _ => .sty
  | .tax _ => .tax
  | .tay _ => .tay
  | .tsx _ => .tsx
  | .txa _ => .txa
  | .txs _ => .txs
  | .tya _ => .tya
  | .label _ => .label

/-- The operand of an instruction; Implied for LABEL (R73). -/
def Instr.operand : Instr → Operand
  | .adc o => o
  | .and o => o
  | .asl o => o
  | .bcc o _ => o
  | .bcs o _ => o
  | .beq o _ => o
  | .bit o => o
  | .bmi o _ => o
  | .bne o _ => o
  | .bpl o _ => o
  | .brk o => o
  | .bvc o _ => o
  | .bvs o _ => o
  | .clc o => o
  | .cld o => o
  | .cli o => o
  | .clv o => o
  | .cmp o => o
  | .cpx o => o
  | .cpy o => o
  | .dec o => o
  | .dex o => o
  | .dey o => o
  | .drw o => o
  | .eor o => o
  | .inc o => o
  | .inx o => o
  | .iny o => o
  | .jmp o _ => o
  | .jsr o _ => o
  | .lda o => o
  | .ldx o => o
  | .ldy o => o
  | .lsr o => o
  | .nop o => o
  | .ora o => o
  | .pha o => o
  | .pla o => o
  | .rol o => o
  | .ror o => o
  | .rti o => o
  | .rts o => o
  | .sbc o => o
  | .sec o => o
  | .sed o => o
  | .sei o => o
  | .sta o => o
  | .stx o => o
  | .sty o => o
  | .tax o => o
  | .tay o => o
  | .tsx o => o
  | .txa o => o
  | .txs o => o
  | .tya o => o
  | .label _ => .implied

/-- The label_name field of the record (R76): the name a label line defines, the name a control transfer refers to,
else the empty text. -/
def Instr.labelName : Instr → Text
  | .jmp _ l | .jsr _ l | .bpl _ l | .bmi _ l | .bvc _ l | .bvs _ l | .bcc _ l | .bcs _ l | .bne _ l | .beq _ l => l
  | .label n => n
  | .adc _ | .and _ | .asl _ | .bit _ | .brk _ | .clc _ | .cld _ | .cli _ | .clv _
  | .cmp _ | .cpx _ | .cpy _ | .dec _ | .dex _ | .dey _ | .drw _ | .eor _ | .inc _
  | .inx _ | .iny _ | .lda _ | .ldx _ | .ldy _ | .lsr _ | .nop _ | .ora _ | .pha _
  | .pla _ | .rol _ | .ror _ | .rti _ | .rts _ | .sbc _ | .sec _ | .sed _ | .sei _
  | .sta _ | .stx _ | .sty _ | .tax _ | .tay _ | .tsx _ | .txa _ | .txs _ | .tya _ => []

end Sys2Proof
end

