-- ==== Sys2Proof/Decode.lean ====
section
/-! DEFINITION. Encoding (30_encoding.md): the operand lexer, the decoder and its error codes, the verifier's legality
table, the instruction record, the encoder, and the reading of an opcode-table word. -/

namespace Sys2Proof

/-! ## Characters (R61, R63, R7) -/

/-- An ASCII character, 0x00..0x7F (R61). -/
def isAscii (c : Char) : Bool := decide (c.toNat < 0x80)

/-- The whitespace set of R61: 0x20 and 0x09..0x0D. -/
def isSpace (c : Char) : Bool := c.toNat == 0x20 || (decide (0x09 ≤ c.toNat) && decide (c.toNat ≤ 0x0D))

/-- `trim` of R7: leading and trailing whitespace removed. -/
def trim (t : Text) : Text := ((t.dropWhile isSpace).reverse.dropWhile isSpace).reverse

/-- `strip_ws` of R7: every whitespace character removed. -/
def stripWs (t : Text) : Text := t.filter fun c => !isSpace c

/-- The value of a hexadecimal digit `0-9`, `A-F` or `a-f` (R63); `none` for any other character. -/
def hexDigit (c : Char) : Option Nat :=
  if 0x30 ≤ c.toNat ∧ c.toNat ≤ 0x39 then some (c.toNat - 0x30)
  else if 0x41 ≤ c.toNat ∧ c.toNat ≤ 0x46 then some (c.toNat - 0x37)
  else if 0x61 ≤ c.toNat ∧ c.toNat ≤ 0x66 then some (c.toNat - 0x57)
  else none

/-! ## Decode errors (R79) -/

/-- The decode errors of R79, each fatal and raised before execution. -/
inductive DecodeError where
  /-- DECODE_UNKNOWN_MNEMONIC -/
  | unknownMnemonic
  /-- DECODE_MALFORMED_OPERAND -/
  | malformedOperand
  /-- DECODE_BAD_HEX -/
  | badHex
  /-- DECODE_NON_ASCII -/
  | nonAscii
  deriving DecidableEq, Repr

/-- The numeric codes of R79. -/
def DecodeError.code : DecodeError → Nat
  | .unknownMnemonic => 0x01
  | .malformedOperand => 0x02
  | .badHex => 0x03
  | .nonAscii => 0x04

/-- `hex` of R63 continued from the value `acc` of the digits read so far: base 16, most significant digit first. -/
def hexFrom (acc : Nat) : Text → Except DecodeError Nat
  | [] => .ok acc
  | c :: t =>
    match hexDigit c with
    | some d => hexFrom (16 * acc + d) t
    | none => .error .badHex

/-- `hex` of R63, as an operand of `n` bits built by `form`. -/
def hexOperand (n : Nat) (form : BitVec n → Operand) (t : Text) : Except DecodeError Operand :=
  match hexFrom 0 t with
  | .ok v => .ok (form (BitVec.ofNat n v))
  | .error e => .error e

/-! ## The operand lexer (R64 to R69) -/

/-- The `#` form: what follows the `#` must be `$hh` (R66). -/
def classifyImmediate : Text → Except DecodeError Operand
  | [d, h, l] => if d = '$' then hexOperand 8 .immediate [h, l] else .error .malformedOperand
  | _ => .error .malformedOperand

/-- The `$` forms, by total length 3, 5 or 7; the argument is what follows the `$` (R67). -/
def classifyDollar : Text → Except DecodeError Operand
  | [h, l] => hexOperand 8 .zeroPage [h, l]
  | [h, l, c, s] =>
    if c = ',' ∧ s = 'X' then hexOperand 8 .zeroPageX [h, l]
    else if c = ',' ∧ s = 'Y' then hexOperand 8 .zeroPageY [h, l]
    else hexOperand 16 .absolute [h, l, c, s]
  | [p, q, h, l, c, s] =>
    if c = ',' then
      if s = 'X' then hexOperand 16 .absoluteX [p, q, h, l]
      else if s = 'Y' then hexOperand 16 .absoluteY [p, q, h, l]
      else .error .malformedOperand
    else .error .malformedOperand
  | _ => .error .malformedOperand

/-- The `(` forms, both seven characters long; the argument is what follows the `(` (R68). -/
def classifyParen : Text → Except DecodeError Operand
  | [d, h, l, p, q, r] =>
    if d = '$' then
      if p = ',' ∧ q = 'X' ∧ r = ')' then hexOperand 8 .indirectX [h, l]
      else if p = ')' ∧ q = ',' ∧ r = 'Y' then hexOperand 8 .indirectY [h, l]
      else .error .malformedOperand
    else .error .malformedOperand
  | _ => .error .malformedOperand

/-- `classify` of R65, on an operand field from which whitespace has been stripped; `transfer` says whether the opcode
is one of the ten of R71. -/
def classify (transfer : Bool) : Text → Except DecodeError Operand
  | [] => .ok .implied
  | c :: t =>
    if c = '#' then classifyImmediate t
    else if c = '$' then classifyDollar t
    else if c = '(' then classifyParen t
    else if transfer then .ok .relative
    else .error .malformedOperand

/-! ## Opcodes (R70, R71, R77) -/

/-- TRANSFER10 (R71). -/
def Opcode.isTransfer : Opcode → Bool
  | .jmp | .jsr | .bpl | .bmi | .bvc | .bvs | .bcc | .bcs | .bne | .beq => true
  | .adc | .and | .asl | .bit | .brk | .clc | .cld | .cli | .clv | .cmp | .cpx | .cpy
  | .dec | .dex | .dey | .drw | .eor | .inc | .inx | .iny | .lda | .ldx | .ldy | .lsr
  | .nop | .ora | .pha | .pla | .rol | .ror | .rti | .rts | .sbc | .sec | .sed | .sei
  | .sta | .stx | .sty | .tax | .tay | .tsx | .txa | .txs | .tya | .label => false

/-- The three characters of a mnemonic (R70). LABEL has none: only a label line produces it. -/
def Opcode.chars : Opcode → Text
  | .adc => ['A', 'D', 'C']
  | .and => ['A', 'N', 'D']
  | .asl => ['A', 'S', 'L']
  | .bcc => ['B', 'C', 'C']
  | .bcs => ['B', 'C', 'S']
  | .beq => ['B', 'E', 'Q']
  | .bit => ['B', 'I', 'T']
  | .bmi => ['B', 'M', 'I']
  | .bne => ['B', 'N', 'E']
  | .bpl => ['B', 'P', 'L']
  | .brk => ['B', 'R', 'K']
  | .bvc => ['B', 'V', 'C']
  | .bvs => ['B', 'V', 'S']
  | .clc => ['C', 'L', 'C']
  | .cld => ['C', 'L', 'D']
  | .cli => ['C', 'L', 'I']
  | .clv => ['C', 'L', 'V']
  | .cmp => ['C', 'M', 'P']
  | .cpx => ['C', 'P', 'X']
  | .cpy => ['C', 'P', 'Y']
  | .dec => ['D', 'E', 'C']
  | .dex => ['D', 'E', 'X']
  | .dey => ['D', 'E', 'Y']
  | .drw => ['D', 'R', 'W']
  | .eor => ['E', 'O', 'R']
  | .inc => ['I', 'N', 'C']
  | .inx => ['I', 'N', 'X']
  | .iny => ['I', 'N', 'Y']
  | .jmp => ['J', 'M', 'P']
  | .jsr => ['J', 'S', 'R']
  | .lda => ['L', 'D', 'A']
  | .ldx => ['L', 'D', 'X']
  | .ldy => ['L', 'D', 'Y']
  | .lsr => ['L', 'S', 'R']
  | .nop => ['N', 'O', 'P']
  | .ora => ['O', 'R', 'A']
  | .pha => ['P', 'H', 'A']
  | .pla => ['P', 'L', 'A']
  | .rol => ['R', 'O', 'L']
  | .ror => ['R', 'O', 'R']
  | .rti => ['R', 'T', 'I']
  | .rts => ['R', 'T', 'S']
  | .sbc => ['S', 'B', 'C']
  | .sec => ['S', 'E', 'C']
  | .sed => ['S', 'E', 'D']
  | .sei => ['S', 'E', 'I']
  | .sta => ['S', 'T', 'A']
  | .stx => ['S', 'T', 'X']
  | .sty => ['S', 'T', 'Y']
  | .tax => ['T', 'A', 'X']
  | .tay => ['T', 'A', 'Y']
  | .tsx => ['T', 'S', 'X']
  | .txa => ['T', 'X', 'A']
  | .txs => ['T', 'X', 'S']
  | .tya => ['T', 'Y', 'A']
  | .label => []

/-- The opcodes that have a mnemonic, in the order of R77. -/
def Opcode.named : List Opcode :=
  [.adc, .and, .asl, .bcc, .bcs, .beq, .bit, .bmi, .bne, .bpl, .brk, .bvc, .bvs, .clc]
  ++ [.cld, .cli, .clv, .cmp, .cpx, .cpy, .dec, .dex, .dey, .drw, .eor, .inc, .inx, .iny]
  ++ [.jmp, .jsr, .lda, .ldx, .ldy, .lsr, .nop, .ora, .pha, .pla, .rol, .ror, .rti, .rts]
  ++ [.sbc, .sec, .sed, .sei, .sta, .stx, .sty, .tax, .tay, .tsx, .txa, .txs, .tya]

/-- The fixed opcode name table (R70, R74): three characters, matched case-sensitively. -/
def opcodeOf (m : Text) : Option Opcode := Opcode.named.find? fun op => op.chars == m

/-- The opcode's ordinal (R77). -/
def Opcode.ordinal : Opcode → Nat
  | .adc => 0
  | .and => 1
  | .asl => 2
  | .bcc => 3
  | .bcs => 4
  | .beq => 5
  | .bit => 6
  | .bmi => 7
  | .bne => 8
  | .bpl => 9
  | .brk => 10
  | .bvc => 11
  | .bvs => 12
  | .clc => 13
  | .cld => 14
  | .cli => 15
  | .clv => 16
  | .cmp => 17
  | .cpx => 18
  | .cpy => 19
  | .dec => 20
  | .dex => 21
  | .dey => 22
  | .drw => 23
  | .eor => 24
  | .inc => 25
  | .inx => 26
  | .iny => 27
  | .jmp => 28
  | .jsr => 29
  | .lda => 30
  | .ldx => 31
  | .ldy => 32
  | .lsr => 33
  | .nop => 34
  | .ora => 35
  | .pha => 36
  | .pla => 37
  | .rol => 38
  | .ror => 39
  | .rti => 40
  | .rts => 41
  | .sbc => 42
  | .sec => 43
  | .sed => 44
  | .sei => 45
  | .sta => 46
  | .stx => 47
  | .sty => 48
  | .tax => 49
  | .tay => 50
  | .tsx => 51
  | .txa => 52
  | .txs => 53
  | .tya => 54
  | .label => 55

/-- The addressing mode's ordinal (R78). -/
def Mode.ordinal : Mode → Nat
  | .immediate => 0
  | .zeroPage => 1
  | .zeroPageX => 2
  | .zeroPageY => 3
  | .absolute => 4
  | .absoluteX => 5
  | .absoluteY => 6
  | .indirectX => 7
  | .indirectY => 8
  | .relative => 9
  | .implied => 10

/-- The instruction with the given opcode, operand and label name (R72's record). Only a control transfer or a LABEL
has a name, and a LABEL has no operand. -/
def Opcode.build (o : Operand) (l : Text) : Opcode → Instr
  | .adc => .adc o
  | .and => .and o
  | .asl => .asl o
  | .bcc => .bcc o l
  | .bcs => .bcs o l
  | .beq => .beq o l
  | .bit => .bit o
  | .bmi => .bmi o l
  | .bne => .bne o l
  | .bpl => .bpl o l
  | .brk => .brk o
  | .bvc => .bvc o l
  | .bvs => .bvs o l
  | .clc => .clc o
  | .cld => .cld o
  | .cli => .cli o
  | .clv => .clv o
  | .cmp => .cmp o
  | .cpx => .cpx o
  | .cpy => .cpy o
  | .dec => .dec o
  | .dex => .dex o
  | .dey => .dey o
  | .drw => .drw o
  | .eor => .eor o
  | .inc => .inc o
  | .inx => .inx o
  | .iny => .iny o
  | .jmp => .jmp o l
  | .jsr => .jsr o l
  | .lda => .lda o
  | .ldx => .ldx o
  | .ldy => .ldy o
  | .lsr => .lsr o
  | .nop => .nop o
  | .ora => .ora o
  | .pha => .pha o
  | .pla => .pla o
  | .rol => .rol o
  | .ror => .ror o
  | .rti => .rti o
  | .rts => .rts o
  | .sbc => .sbc o
  | .sec => .sec o
  | .sed => .sed o
  | .sei => .sei o
  | .sta => .sta o
  | .stx => .stx o
  | .sty => .sty o
  | .tax => .tax o
  | .tay => .tay o
  | .tsx => .tsx o
  | .txa => .txa o
  | .txs => .txs o
  | .tya => .tya o
  | .label => .label l

/-! ## The decoder (R72 to R75) -/

/-- The instruction line of R72: the first three characters are the mnemonic, the rest is the operand field. -/
def decodeInstruction : Text → Except DecodeError Instr
  | a :: b :: c :: f =>
    match opcodeOf [a, b, c] with
    | none => .error .unknownMnemonic
    | some op =>
      match classify op.isTransfer (stripWs f) with
      | .error e => .error e
      | .ok o => .ok (op.build o (if op.isTransfer then trim f else []))
  | _ => .error .unknownMnemonic

/-- `decode` of R72, total on any sequence of characters. The empty line, which is never delivered (R60), is an unknown
mnemonic: log entry 6. -/
def decode (line : Text) : Except DecodeError Instr :=
  if line.all isAscii then
    if line.getLast? = some ':' then .ok (.label (trim line.dropLast))
    else decodeInstruction line
  else .error .nonAscii

/-- `decode` on bytes; a byte above 0x7F is no ASCII character (R61). -/
def decodeBytes (line : List Byte) : Except DecodeError Instr :=
  decode (line.map fun b => Char.ofNat b.toNat)

/-! ## The verifier's table (R85) -/

/-- "Addressing-mode legality table (closed set)" (R85). LABEL and the "no check" row admit every mode. -/
def Opcode.legal (m : Mode) : Opcode → Bool
  | .asl | .lsr | .ror | .rol =>
    m ∈ [Mode.implied, Mode.zeroPage, Mode.zeroPageX, Mode.absolute, Mode.absoluteX]
  | .dec | .inc => m ∈ [Mode.zeroPage, Mode.zeroPageX, Mode.absolute, Mode.absoluteX]
  | .cpx | .cpy => m ∈ [Mode.immediate, Mode.zeroPage, Mode.absolute]
  | .stx => m ∈ [Mode.zeroPage, Mode.indirectY, Mode.absolute, Mode.absoluteX]
  | .sty => m ∈ [Mode.zeroPage, Mode.zeroPageY, Mode.absolute, Mode.absoluteX]
  | .bit => m ∈ [Mode.zeroPage, Mode.absolute]
  | .txs | .tsx | .pha | .pla | .rts | .rti | .tax | .txa | .dex | .inx | .tay | .tya | .dey | .iny | .nop
  | .clc | .sec | .cli | .sei | .clv | .cld | .sed | .brk | .drw => m = Mode.implied
  | .bpl | .bmi | .bvc | .bvs | .bcc | .bcs | .bne | .beq | .jmp | .jsr => m = Mode.relative
  | .adc | .and | .cmp | .eor | .lda | .ldx | .ldy | .ora | .sbc | .sta | .label => true

/-- The verifier's check of one record (R85, R87): it is a pure test. -/
def Instr.legal (i : Instr) : Bool := i.opcode.legal i.operand.mode

/-! ## The instruction record (R76) -/

/-- The 16-bit value field: the parsed operand, zero-extended, or the sentinel for Implied and Relative (R64, R66). -/
def Operand.value : Operand → Half
  | .immediate v | .zeroPage v | .zeroPageX v | .zeroPageY v | .indirectX v | .indirectY v => v.setWidth 16
  | .absolute v | .absoluteX v | .absoluteY v => v
  | .relative | .implied => 0xFFFF#16

/-- An instruction record with the field widths of R76. -/
structure Record where
  opcode : BitVec 6
  mode : BitVec 4
  value : Half
  labelName : Text
  deriving DecidableEq, Repr

/-- The record an instruction stands for (R76 to R78). -/
def Instr.record (i : Instr) : Record where
  opcode := BitVec.ofNat 6 i.opcode.ordinal
  mode := BitVec.ofNat 4 i.operand.mode.ordinal
  value := i.operand.value
  labelName := i.labelName

/-! ## What a line can spell -/

/-- A label name that a label line can define: ASCII and trimmed (R61, R73). -/
def definableName (n : Text) : Bool := n.all isAscii && trim n == n

/-- A label name that a control transfer can refer to: besides, it is not empty, does not begin as a numeric form
(R69) and does not end the line with a colon (R62). -/
def referableName (l : Text) : Bool :=
  definableName l && (l.head? != none) && (l.head? != some '#') && (l.head? != some '$') && (l.head? != some '(')
    && (l.getLast? != some ':')

/-- The instruction can be spelled: Relative stands only with a control transfer (R69, R86), and names are as the
decoder delivers them (R73, R75). -/
def Instr.spelled (i : Instr) : Bool :=
  match i with
  | .label n => definableName n
  | _ => i.operand != .relative || (i.opcode.isTransfer && referableName i.labelName)

/-! ## The encoder: a line for each well-formed instruction, from the table of R64 -/

/-- The upper-case hexadecimal digit of a value below 16. -/
def hexChar (n : Nat) : Char := if n < 10 then Char.ofNat (0x30 + n) else Char.ofNat (0x37 + n)

/-- Two hexadecimal digits. -/
def hexByte (v : Byte) : Text := [hexChar (v.toNat / 16), hexChar (v.toNat % 16)]

/-- Four hexadecimal digits. -/
def hexHalf (v : Half) : Text :=
  [hexChar (v.toNat / 4096), hexChar (v.toNat / 256 % 16), hexChar (v.toNat / 16 % 16), hexChar (v.toNat % 16)]

/-- The operand field's text (R64); a label reference is its name. -/
def Operand.text (l : Text) : Operand → Text
  | .immediate v => '#' :: '$' :: hexByte v
  | .zeroPage v => '$' :: hexByte v
  | .zeroPageX v => '$' :: hexByte v ++ [',', 'X']
  | .zeroPageY v => '$' :: hexByte v ++ [',', 'Y']
  | .absolute v => '$' :: hexHalf v
  | .absoluteX v => '$' :: hexHalf v ++ [',', 'X']
  | .absoluteY v => '$' :: hexHalf v ++ [',', 'Y']
  | .indirectX v => '(' :: '$' :: hexByte v ++ [',', 'X', ')']
  | .indirectY v => '(' :: '$' :: hexByte v ++ [')', ',', 'Y']
  | .relative => l
  | .implied => []

/-- The line of an instruction: `name:` for a LABEL, else the mnemonic and, after a space, the operand (R62, R90). -/
def encode (i : Instr) : Text :=
  match i with
  | .label n => n ++ [':']
  | _ =>
    match i.operand with
    | .implied => i.opcode.chars
    | o => i.opcode.chars ++ ' ' :: o.text i.labelName

/-! ## Words of the opcode table -/

/-- The three characters of a 24-bit table word, the first in bits 23..16, as the table's match_encoding says. A byte
of zero bits is no character: log entry 4. -/
def wordChars (w : Nat) : Text :=
  ([w / 0x10000 % 0x100, w / 0x100 % 0x100, w % 0x100].filter (· != 0)).map Char.ofNat

/-- The line in `n` 24-bit words, the first in the least significant bits. -/
def wordsLine : Nat → Nat → Text
  | 0, _ => []
  | n + 1, w => wordChars w ++ wordsLine n (w / 0x1000000)

/-- The line of an opcode-table word of `nbits` bits: its whole 24-bit words (log entry 4). -/
def tableLine (nbits w : Nat) : Text := wordsLine (nbits / 24) w

/-- The instruction the decoder reads from an opcode-table word. -/
def decodeTableWord (nbits w : Nat) : Option Instr :=
  match decode (tableLine nbits w) with
  | .ok i => some i
  | .error _ => none

end Sys2Proof
end

