-- ==== Sys2Proof/Machine/State.lean ====
section
/-! DEFINITION. The state of the machine (10_state.md), the reasons a step can have no next state, and reset. -/

namespace Sys2Proof.Machine

/-- The six flags, "six independent booleans" (R25). -/
structure Flags where
  /-- carry -/
  c : Bool
  /-- zero -/
  z : Bool
  /-- interrupt disable (R27: it masks nothing) -/
  i : Bool
  /-- decimal -/
  d : Bool
  /-- overflow -/
  v : Bool
  /-- negative -/
  n : Bool
  deriving DecidableEq, Repr

/-- The run-time faults of R250. -/
inductive FaultCode where
  /-- UNRESOLVED_LABEL: a control transfer whose label name is not in the label table -/
  | unresolvedLabel
  /-- STACK_OVERFLOW: PHA at SP16 = 0x00FF -/
  | stackOverflow
  /-- STACK_UNDERFLOW: PLA at SP16 = 0x01FF -/
  | stackUnderflow
  /-- CALL_STACK_EMPTY: RTS with an empty call stack -/
  | callStackEmpty
  /-- CALL_STACK_OVERFLOW: JSR with a full call stack -/
  | callStackOverflow
  /-- OPERAND_MISSING: an operand read in a mode that has none -/
  | operandMissing
  /-- NO_STORE_TARGET: a store in a mode that names no cell -/
  | noStoreTarget
  /-- RTI_UNSUPPORTED: RTI, always -/
  | rtiUnsupported
  /-- DECIMAL_UNSUPPORTED: ADC or SBC while D = 1 -/
  | decimalUnsupported
  deriving DecidableEq, Repr

/-- Why the engine halted (R9, R33). -/
inductive HaltReason where
  /-- `Halted(BRK)` -/
  | brk
  /-- `Halted(END)`: the fetch found the end of the program -/
  | endOfProgram
  deriving DecidableEq, Repr

/-- The status register (R33). -/
inductive Status where
  | running
  | halted (r : HaltReason)
  | faulted (code : FaultCode) (index : Nat)
  deriving DecidableEq, Repr

/-- The data memory M (R31, R40): 65536 bytes. `ram` lists cells by rising address, none of them zero, and none of
them one of the two platform cells, which stand in fields of their own (R47, R48; log entry 1). -/
structure Memory where
  ram : List Host.Cell
  /-- M[0x00FE], the entropy cell (R47) -/
  entropyCell : Byte
  /-- M[0x00FF], the key cell (R48) -/
  keyCell : Byte
  deriving DecidableEq, Repr

/-- The label table LT (R80): names with the instruction index each stands for. -/
abbrev LabelTable := List (Text × Nat)

/-- The state of the machine (R36), with the program store (R32), the frame indication (R15, R34), and the model's own
counter of draws. -/
@[ext]
structure State where
  /-- the accumulator (R21) -/
  a : Byte
  /-- the index register X (R22) -/
  x : Byte
  /-- the index register Y (R23) -/
  y : Byte
  /-- the stack pointer (R24); the register-file `sp` is the view `State.sp` of it -/
  sp16 : Half
  flags : Flags
  /-- the instruction index (R28) -/
  pc : Nat
  /-- the call stack CS, the top first (R30) -/
  callStack : List Nat
  mem : Memory
  /-- the verified sequence P (R32), installed by a load -/
  program : List Instr
  /-- the label table LT (R32), installed by a load -/
  labels : LabelTable
  status : Status
  /-- the frame indication of the last step (R15) -/
  frame : Bool
  /-- the model's own: how many post-instruction phases have drawn (log entry 2) -/
  drawIndex : Nat
  deriving DecidableEq, Repr

/-- The machine stops with no next state. -/
inductive Fault where
  /-- Raised by `step` alone, when the status is Halted: "In every other status the engine has no step" (R100, R33).
  Safe: the machine itself has no step there. -/
  | engineHalted (r : HaltReason)
  /-- Raised by `step` alone, when the status is Faulted (R100, R33, R252). Safe, for the same reason. -/
  | engineFaulted (code : FaultCode) (index : Nat)
  deriving DecidableEq, Repr

/-- The model has no meaning for an instruction. -/
inductive Refusal where
  /-- Raised by an arm of `exec` for an instruction not yet modelled; no arm raises it now. Safe. -/
  | notModelled (mnemonic : String)
  deriving DecidableEq, Repr

/-- What every step and every meaning answers. -/
abbrev Result := Host.Outcome State Fault Refusal

/-- The reset values of R34 and R280, with the program and the label table that the load installs (R95). -/
def State.resetWith (program : List Instr) (labels : LabelTable) : State where
  a := 0
  x := 0
  y := 0
  sp16 := 0x01FF#16
  flags := ⟨false, false, false, false, false, false⟩
  pc := 0
  callStack := []
  mem := ⟨[], Config.entropyAtReset, 0⟩
  program := program
  labels := labels
  status := .running
  frame := false
  drawIndex := 0

/-- The machine right after reset with the empty program: a program comes from outside, by a load (R11, R280; log
entry 4). -/
def State.reset : State := State.resetWith [] []

end Sys2Proof.Machine
end

