-- ==== Sys2Proof/Machine/Flags.lean ====
section
/-! DEFINITION. The flag computations and the arithmetic that sets them (40 §3, 42, 43). -/

namespace Sys2Proof.Machine

/-- `SetNZ(v)` (R120). -/
def Flags.setNZ (f : Flags) (v : Byte) : Flags := { f with z := v == 0, n := v.msb }

/-- ADC's 16-bit intermediate sum, with no carry in (R150, D23). -/
def adcSum (a m : Byte) : Nat := a.toNat + m.toNat

/-- ADC's result: the sum's low byte (R150). -/
def adcResult (a m : Byte) : Byte := BitVec.ofNat 8 (adcSum a m)

/-- ADC's flags (R150): carry out of the intermediate sum, signed overflow, N and Z. -/
def Flags.afterAdc (f : Flags) (a m : Byte) : Flags :=
  { f with c := decide (255 < adcSum a m), v := (~~~(a ^^^ m) &&& (a ^^^ adcResult a m)).msb }.setNZ (adcResult a m)

/-- SBC's result: the difference modulo 256, with no borrow in (R151, D23). -/
def sbcResult (a m : Byte) : Byte := BitVec.ofInt 8 ((a.toNat : Int) - m.toNat)

/-- SBC's flags (R151): carry means no borrow (D24), signed overflow, N and Z. -/
def Flags.afterSbc (f : Flags) (a m : Byte) : Flags :=
  { f with c := decide (m.toNat ≤ a.toNat), v := ((a ^^^ m) &&& (a ^^^ sbcResult a m)).msb }.setNZ (sbcResult a m)

/-- BIT's flags (R155): Z from A & M, N and V from bits 7 and 6 of M. -/
def Flags.afterBit (f : Flags) (a m : Byte) : Flags :=
  { f with z := (a &&& m) == 0, n := m.getLsbD 7, v := m.getLsbD 6 }

/-- `Compare(r, m)` (R174): an unnamed flag keeps its value. -/
def Flags.compare (f : Flags) (r m : Byte) : Flags :=
  if r = m then { f with z := true, c := true }
  else if m.toNat < r.toNat then { f with n := true, c := true }
  else { f with n := false }

/-- What a read-modify-write instruction makes of a byte and the flags. -/
abbrev ByteOp := Flags → Byte → Byte × Flags

/-- A result with the carry that was shifted out (R170 to R173), N and Z from the result. -/
def shifted (f : Flags) (r : Byte) (out : Bool) : Byte × Flags := (r, { f with c := out }.setNZ r)

/-- ASL (R170). -/
def aslByte : ByteOp := fun f v => shifted f (v <<< 1) (v.getLsbD 7)

/-- LSR (R171). -/
def lsrByte : ByteOp := fun f v => shifted f (v >>> 1) (v.getLsbD 0)

/-- ROL (R172): the previous carry enters bit 0. -/
def rolByte : ByteOp := fun f v => shifted f (v <<< 1 ||| (BitVec.ofBool f.c).setWidth 8) (v.getLsbD 7)

/-- ROR (R173): the previous carry enters bit 7. -/
def rorByte : ByteOp := fun f v => shifted f (v >>> 1 ||| (BitVec.ofBool f.c).setWidth 8 <<< 7) (v.getLsbD 0)

/-- The increment modulo 256, with N and Z (R178). -/
def incByte : ByteOp := fun f v => (v + 1, f.setNZ (v + 1))

/-- The decrement modulo 256, with N and Z (R179). -/
def decByte : ByteOp := fun f v => (v - 1, f.setNZ (v - 1))

end Sys2Proof.Machine
end

