-- ==== Sys2Proof/Machine/Ops.lean ====
section
/-! DEFINITION. The named operations on memory, registers, the program store and the run status. -/

namespace Sys2Proof.Machine

/-! ## Memory (20_memory.md) -/

/-- What a cell that is not listed reads as: every cell but 0x00FE is zero at reset (R34). -/
def unlisted (_ : Nat) : Byte := 0

/-- The byte listed for an address. -/
def readCells : List Host.Cell → Nat → Byte
  | [], a => unlisted a
  | (k, v) :: m, a => if k = a then v else readCells m a

/-- A cell put before the cells above it, unless it holds what an unlisted address reads as. -/
def consCell (a : Nat) (v : Byte) (m : List Host.Cell) : List Host.Cell :=
  if v = unlisted a then m else (a, v) :: m

/-- A byte written into the list, which keeps its canonical form. -/
def writeCells : List Host.Cell → Nat → Byte → List Host.Cell
  | [], a, v => consCell a v []
  | (k, w) :: m, a, v =>
    if k < a then (k, w) :: writeCells m a v
    else if k = a then consCell a v m
    else consCell a v ((k, w) :: m)

/-- The addresses rise strictly from `low`. -/
def risingFrom : Nat → List Host.Cell → Bool
  | _, [] => true
  | low, (k, _) :: m => decide (low ≤ k) && risingFrom (k + 1) m

/-- A cell that may be listed: an address of M that is no platform cell, with a byte that is not the unlisted one. -/
def listable (c : Host.Cell) : Bool :=
  decide (c.1 < 0x10000) && c.1 != Config.entropyAddr.toNat && c.1 != Config.keyAddr.toNat && c.2 != unlisted c.1

/-- The canonical form of memory: equal memories are equal data. -/
def Memory.wf (m : Memory) : Bool := risingFrom 0 m.ram && m.ram.all listable

/-- `MemRead(a, 1)` (R41). -/
def Memory.read (m : Memory) (a : Half) : Byte :=
  if a = Config.entropyAddr then m.entropyCell
  else if a = Config.keyAddr then m.keyCell
  else readCells m.ram a.toNat

/-- `MemWrite(a, 1, v)` (R41). -/
def Memory.write (m : Memory) (a : Half) (v : Byte) : Memory :=
  if a = Config.entropyAddr then { m with entropyCell := v }
  else if a = Config.keyAddr then { m with keyCell := v }
  else { m with ram := writeCells m.ram a.toNat v }

/-- The byte a state holds at an address. -/
def State.readByte (s : State) (a : Half) : Byte := s.mem.read a

/-- `MemRead16LE` (R44): the cell at `lo` is the low byte, the cell at `hi` the high byte. -/
def State.readPointer (s : State) (lo hi : Half) : Half := s.readByte hi ++ s.readByte lo

/-! ## Updates of one field -/

def State.setA (s : State) (v : Byte) : State := { s with a := v }
def State.setX (s : State) (v : Byte) : State := { s with x := v }
def State.setY (s : State) (v : Byte) : State := { s with y := v }
def State.setSp16 (s : State) (v : Half) : State := { s with sp16 := v }
def State.setFlags (s : State) (f : Flags) : State := { s with flags := f }
def State.setPc (s : State) (i : Nat) : State := { s with pc := i }
def State.setCallStack (s : State) (cs : List Nat) : State := { s with callStack := cs }
def State.setStatus (s : State) (st : Status) : State := { s with status := st }
def State.setFrame (s : State) (b : Bool) : State := { s with frame := b }
def State.setDrawIndex (s : State) (n : Nat) : State := { s with drawIndex := n }

/-- A byte stored in the state's memory. -/
def State.writeByte (s : State) (a : Half) (v : Byte) : State := { s with mem := s.mem.write a v }

/-! ## Registers, the index and the run status -/

/-- The register-file `sp`: the view SP16[7:0] (R24). -/
def State.sp (s : State) : Byte := s.sp16.setWidth 8

/-- TXS's stack pointer: 0x0100 | zext_16(v), in page one (R24, R211). -/
def pageOne (v : Byte) : Half := 0x0100#16 ||| v.setWidth 16

/-- `pc <- pc + 1`, for an instruction that does not redirect (R105). -/
def State.advance (s : State) : State := s.setPc (s.pc + 1)

/-- `halt` of R104: the status is Halted and pc stays. -/
def State.halt (s : State) (r : HaltReason) : State := s.setStatus (.halted r)

/-- TAKING A FAULT (R104, R107, R252): the status becomes `Faulted(code, pc)`, pc being the faulting instruction's
index, and nothing else is written. There is no handler, no vector and no saved context (R252), and no instruction
returns from a fault (R257), so there is no operation of return. -/
def State.raiseFault (s : State) (code : FaultCode) : State := s.setStatus (.faulted code s.pc)

/-- A handler that goes on with the value of a test, or raises the fault the test found; no write comes before the
test, so a fault is precise (R107). -/
def orFault {α : Type} (s : State) (test : Except FaultCode α) (k : α → Result) : Result :=
  match test with
  | .error code => .next (s.raiseFault code)
  | .ok v => k v

/-! ## Labels and the call stack -/

/-- `LT(name)`: the index a name stands for, by exact equality of names (R80, R82). -/
def lookupLabel : LabelTable → Text → Option Nat
  | [], _ => none
  | (n, i) :: t, name => if n = name then some i else lookupLabel t name

/-- `Target(ins)` (R121). -/
def State.target (s : State) (name : Text) : Except FaultCode Nat :=
  match lookupLabel s.labels name with
  | some i => .ok i
  | none => .error .unresolvedLabel

/-- The call stack is at its capacity (R30); never, where that is unbounded. -/
def State.callStackFull (s : State) : Bool := Config.callStackDepth == some s.callStack.length

/-! ## The step's frame -/

/-- The start of a step: the frame indication, which is for one step only, is deasserted (R15; log entry 7). -/
def State.beginStep (s : State) : State := s.setFrame false

/-- The post-instruction phase (R103): the entropy byte goes to 0x00FE, and a key code, where there is a key event, to
0x00FF. -/
def State.postInstruction (s : State) : State :=
  let s := s.writeByte Config.entropyAddr (Config.entropy s.drawIndex)
  let s := s.writeByte Config.keyAddr ((Config.keyEvent s.drawIndex).getD (s.readByte Config.keyAddr))
  s.setDrawIndex (s.drawIndex + 1)

/-- The end of a step: no post-instruction phase follows a fault (R103, R252). -/
def State.finishStep (s : State) : State :=
  match s.status with
  | .faulted _ _ => s
  | .running | .halted _ => s.postInstruction

/-- `P[pc]`, or `none` at the end of the program (R101). -/
def State.fetch (s : State) : Option Instr := s.program[s.pc]?

/-! ## What the host may read -/

/-- The numeric code of a run-time fault (R250). -/
def FaultCode.code : FaultCode → Nat
  | .unresolvedLabel => 0x10
  | .stackOverflow => 0x11
  | .stackUnderflow => 0x12
  | .callStackEmpty => 0x13
  | .callStackOverflow => 0x14
  | .operandMissing => 0x15
  | .noStoreTarget => 0x16
  | .rtiUnsupported => 0x17
  | .decimalUnsupported => 0x18

/-- What is reported of a fault (R16, R253): the code and the index, and the opcode and label name of `P[pc]`. -/
structure FaultReport where
  code : Nat
  index : Nat
  opcode : Option Opcode
  labelName : Text
  deriving DecidableEq, Repr

/-- The status output in the Faulted status (R253). -/
def State.faultReport (s : State) : Option FaultReport :=
  match s.status with
  | .faulted code i =>
    let ins := s.program[i]?
    some ⟨code.code, i, ins.map Instr.opcode, (ins.map Instr.labelName).getD []⟩
  | .running | .halted _ => none

/-- The screen window (R14, R49): the cells from SCREEN_BASE on, SCREEN_LEN of them. -/
def State.screen (s : State) : List Byte :=
  (List.range Config.screenLen).map fun k => s.readByte (BitVec.ofNat 16 (Config.screenBase + k))

end Sys2Proof.Machine
end

