-- ==== Sys2Proof/Machine/Operands.lean ====
section
/-! DEFINITION. Operand addressing (40_engine_and_addressing.md §2): effective addresses, operand reads, store
addresses and read-modify-write targets. -/

namespace Sys2Proof.Machine

/-- The 16-bit address of a zero-page cell. -/
def zeroPageAddr (v : Byte) : Half := v.setWidth 16

/-- The pointer whose low byte is in the zero-page cell `p` and whose high byte is in the next one, wrapping within
the zero page (R110, R44). -/
def State.zeroPagePointer (s : State) (p : Byte) : Half := s.readPointer (zeroPageAddr p) (zeroPageAddr (p + 1))

/-- `EA(mode, value)` (R110) for the eight memory modes; `none` for the three modes that have no effective address. -/
def State.ea (s : State) : Operand → Option Half
  | .zeroPage v => some (zeroPageAddr v)
  | .zeroPageX v => some (zeroPageAddr (v + s.x))
  | .zeroPageY v => some (zeroPageAddr (v + s.y))
  | .absolute v => some v
  | .absoluteX v => some (v + s.x.setWidth 16)
  | .absoluteY v => some (v + s.y.setWidth 16)
  | .indirectX v => some (s.zeroPagePointer (v + s.x))
  | .indirectY v => some (s.zeroPagePointer v + s.y.setWidth 16)
  | .immediate _ | .relative | .implied => none

/-- `ReadOperand(ins)` (R111). -/
def State.readOperand (s : State) (o : Operand) : Except FaultCode Byte :=
  match o with
  | .immediate v => .ok v
  | _ =>
    match s.ea o with
    | some a => .ok (s.readByte a)
    | none => .error .operandMissing

/-- `StoreAddr(ins)` (R112). -/
def State.storeAddr (s : State) (o : Operand) : Except FaultCode Half :=
  match s.ea o with
  | some a => .ok a
  | none => .error .noStoreTarget

/-- A read-modify-write target (R113): the accumulator, or the cell at an address computed once. -/
inductive RmwTarget where
  | acc
  | cell (a : Half)
  deriving DecidableEq, Repr

/-- `RmwTarget(ins)` (R113); `accumulator` says whether Implied names the accumulator (ASL, LSR, ROL, ROR only). -/
def State.rmwTarget (s : State) (accumulator : Bool) (o : Operand) : Except FaultCode RmwTarget :=
  if accumulator ∧ o = .implied then .ok .acc
  else
    match s.ea o with
    | some a => .ok (.cell a)
    | none => .error .noStoreTarget

/-- `RmwRead(t)` (R113). -/
def State.rmwRead (s : State) : RmwTarget → Byte
  | .acc => s.a
  | .cell a => s.readByte a

/-- `RmwWrite(t, v)` (R113). -/
def State.rmwWrite (s : State) (t : RmwTarget) (v : Byte) : State :=
  match t with
  | .acc => s.setA v
  | .cell a => s.writeByte a v

end Sys2Proof.Machine
end

