-- ==== Sys2Proof/Machine/ArithLogic.lean ====
section
/-! DEFINITION. Arithmetic and logic: ADC, SBC, AND, ORA, EOR, BIT (42_arithmetic_logic.md). -/

namespace Sys2Proof.Machine

/-- The accumulator combined with an operand: the shape of ADC, SBC, AND, ORA and EOR. -/
def accumulate (result : Byte → Byte → Byte) (flags : Flags → Byte → Byte → Flags) (o : Operand) (s : State) : Result :=
  orFault s (s.readOperand o) fun m =>
    .next ((s.setA (result s.a m)).setFlags (flags s.flags s.a m)).advance

/-- ADC and SBC fault while D = 1, before their operand is read (R150, R151, R255). -/
def binaryOnly (s : State) (k : State → Result) : Result :=
  if s.flags.d then .next (s.raiseFault .decimalUnsupported) else k s

/-- ADC (R150). -/
def execAdc (o : Operand) (s : State) : Result := binaryOnly s (accumulate adcResult Flags.afterAdc o)

/-- SBC (R151). -/
def execSbc (o : Operand) (s : State) : Result := binaryOnly s (accumulate sbcResult Flags.afterSbc o)

/-- AND (R152). -/
def execAnd (o : Operand) (s : State) : Result :=
  accumulate (fun a m => a &&& m) (fun f a m => f.setNZ (a &&& m)) o s

/-- ORA (R153). -/
def execOra (o : Operand) (s : State) : Result :=
  accumulate (fun a m => a ||| m) (fun f a m => f.setNZ (a ||| m)) o s

/-- EOR (R154). -/
def execEor (o : Operand) (s : State) : Result :=
  accumulate (fun a m => a ^^^ m) (fun f a m => f.setNZ (a ^^^ m)) o s

/-- BIT (R155). -/
def execBit (o : Operand) (s : State) : Result :=
  orFault s (s.readOperand o) fun m => .next (s.setFlags (s.flags.afterBit s.a m)).advance

end Sys2Proof.Machine
end

