-- ==== Sys2Proof/Machine/Control.lean ====
section
/-! DEFINITION. Control transfer: JMP, JSR, RTS, RTI and the conditional branches (41_control_transfer.md). -/

namespace Sys2Proof.Machine

/-- JSR (R131): the label is resolved before the call stack is tested (R255); the JSR's own index is pushed (D47). -/
def execJsr (l : Text) (s : State) : Result :=
  orFault s (s.target l) fun t =>
    if s.callStackFull then .next (s.raiseFault .callStackOverflow)
    else .next ((s.setCallStack (s.pc :: s.callStack)).setPc t)

/-- RTS (R132): execution resumes after the JSR whose index is on top. -/
def execRts (s : State) : Result :=
  match s.callStack with
  | [] => .next (s.raiseFault .callStackEmpty)
  | j :: cs => .next ((s.setCallStack cs).setPc (j + 1))

/-- JMP (R133). -/
def execJmp (l : Text) (s : State) : Result := orFault s (s.target l) fun t => .next (s.setPc t)

/-- RTI (R134): always the fault RTI_UNSUPPORTED. -/
def execRti (s : State) : Result := .next (s.raiseFault .rtiUnsupported)

/-- The common form of the conditional branches (R143): the label is resolved whether or not the branch is taken. -/
def branch (taken : Bool) (l : Text) (s : State) : Result :=
  orFault s (s.target l) fun t => .next (if taken then s.setPc t else s.advance)

/-- BCC (R135). -/
def execBcc (l : Text) (s : State) : Result := branch (!s.flags.c) l s

/-- BCS (R136). -/
def execBcs (l : Text) (s : State) : Result := branch s.flags.c l s

/-- BEQ (R137). -/
def execBeq (l : Text) (s : State) : Result := branch s.flags.z l s

/-- BNE (R138). -/
def execBne (l : Text) (s : State) : Result := branch (!s.flags.z) l s

/-- BMI (R139). -/
def execBmi (l : Text) (s : State) : Result := branch s.flags.n l s

/-- BPL (R140). -/
def execBpl (l : Text) (s : State) : Result := branch (!s.flags.n) l s

/-- BVC (R141). -/
def execBvc (l : Text) (s : State) : Result := branch (!s.flags.v) l s

/-- BVS (R142). -/
def execBvs (l : Text) (s : State) : Result := branch s.flags.v l s

end Sys2Proof.Machine
end

