-- ==== Sys2Proof/Machine/LoadStore.lean ====
section
/-! DEFINITION. Loads, stores, register transfers and the data stack (44_load_store_transfer_stack.md). -/

namespace Sys2Proof.Machine

/-- A value moved into a register, with N and Z from it: the end of every load and of every transfer but TXS. -/
def moved (set : State → Byte → State) (v : Byte) (s : State) : Result :=
  .next ((set s v).setFlags (s.flags.setNZ v)).advance

/-- LDA (R200). -/
def execLda (o : Operand) (s : State) : Result := orFault s (s.readOperand o) fun m => moved State.setA m s

/-- LDX (R201). -/
def execLdx (o : Operand) (s : State) : Result := orFault s (s.readOperand o) fun m => moved State.setX m s

/-- LDY (R202). -/
def execLdy (o : Operand) (s : State) : Result := orFault s (s.readOperand o) fun m => moved State.setY m s

/-- A register's value stored at the operand's address. -/
def storeByte (v : Byte) (o : Operand) (s : State) : Result :=
  orFault s (s.storeAddr o) fun a => .next (s.writeByte a v).advance

/-- STA (R203). -/
def execSta (o : Operand) (s : State) : Result := storeByte s.a o s

/-- STX (R204). -/
def execStx (o : Operand) (s : State) : Result := storeByte s.x o s

/-- STY (R205). -/
def execSty (o : Operand) (s : State) : Result := storeByte s.y o s

/-- TAX (R206). -/
def execTax (s : State) : Result := moved State.setX s.a s

/-- TXA (R207). -/
def execTxa (s : State) : Result := moved State.setA s.x s

/-- TAY (R208). -/
def execTay (s : State) : Result := moved State.setY s.a s

/-- TYA (R209). -/
def execTya (s : State) : Result := moved State.setA s.y s

/-- TSX (R210): X takes the view SP16[7:0]. -/
def execTsx (s : State) : Result := moved State.setX s.sp s

/-- TXS (R211): it writes no flag. -/
def execTxs (s : State) : Result := .next (s.setSp16 (pageOne s.x)).advance

/-- PHA (R212): write, then decrement. -/
def execPha (s : State) : Result :=
  if s.sp16 = Config.stackLimit then .next (s.raiseFault .stackOverflow)
  else .next ((s.writeByte s.sp16 s.a).setSp16 (s.sp16 - 1)).advance

/-- PLA (R213): increment, then read. -/
def execPla (s : State) : Result :=
  if s.sp16 = Config.stackTop then .next (s.raiseFault .stackUnderflow)
  else moved State.setA (s.readByte (s.sp16 + 1)) (s.setSp16 (s.sp16 + 1))

end Sys2Proof.Machine
end

