-- ==== Sys2Proof/Machine/ShiftCompare.lean ====
section
/-! DEFINITION. Shifts, rotates, compares, increments and decrements (43_shift_compare_incdec.md). -/

namespace Sys2Proof.Machine

/-- The read-modify-write instructions (R113): read the target, write it back, set the flags. -/
def readModifyWrite (accumulator : Bool) (op : ByteOp) (o : Operand) (s : State) : Result :=
  orFault s (s.rmwTarget accumulator o) fun t =>
    .next ((s.rmwWrite t (op s.flags (s.rmwRead t)).1).setFlags (op s.flags (s.rmwRead t)).2).advance

/-- ASL (R170). -/
def execAsl (o : Operand) (s : State) : Result := readModifyWrite true aslByte o s

/-- LSR (R171). -/
def execLsr (o : Operand) (s : State) : Result := readModifyWrite true lsrByte o s

/-- ROL (R172). -/
def execRol (o : Operand) (s : State) : Result := readModifyWrite true rolByte o s

/-- ROR (R173). -/
def execRor (o : Operand) (s : State) : Result := readModifyWrite true rorByte o s

/-- INC (R178): memory only. -/
def execInc (o : Operand) (s : State) : Result := readModifyWrite false incByte o s

/-- DEC (R179): memory only. -/
def execDec (o : Operand) (s : State) : Result := readModifyWrite false decByte o s

/-- A compare of a register's value with an operand (R174). -/
def compareWith (r : Byte) (o : Operand) (s : State) : Result :=
  orFault s (s.readOperand o) fun m => .next (s.setFlags (s.flags.compare r m)).advance

/-- CMP (R175). -/
def execCmp (o : Operand) (s : State) : Result := compareWith s.a o s

/-- CPX (R176). -/
def execCpx (o : Operand) (s : State) : Result := compareWith s.x o s

/-- CPY (R177). -/
def execCpy (o : Operand) (s : State) : Result := compareWith s.y o s

/-- INX (R180). -/
def execInx (s : State) : Result :=
  .next ((s.setX (incByte s.flags s.x).1).setFlags (incByte s.flags s.x).2).advance

/-- INY (R181). -/
def execIny (s : State) : Result :=
  .next ((s.setY (incByte s.flags s.y).1).setFlags (incByte s.flags s.y).2).advance

/-- DEX (R182). -/
def execDex (s : State) : Result :=
  .next ((s.setX (decByte s.flags s.x).1).setFlags (decByte s.flags s.x).2).advance

/-- DEY (R183). -/
def execDey (s : State) : Result :=
  .next ((s.setY (decByte s.flags s.y).1).setFlags (decByte s.flags s.y).2).advance

end Sys2Proof.Machine
end

