-- ==== Sys2Proof/Machine/System.lean ====
section
/-! DEFINITION. Flag operations and system instructions (45_flags_system.md). -/

namespace Sys2Proof.Machine

/-- CLC (R230). -/
def execClc (s : State) : Result := .next (s.setFlags { s.flags with c := false }).advance

/-- SEC (R231). -/
def execSec (s : State) : Result := .next (s.setFlags { s.flags with c := true }).advance

/-- CLI (R232). -/
def execCli (s : State) : Result := .next (s.setFlags { s.flags with i := false }).advance

/-- SEI (R233). -/
def execSei (s : State) : Result := .next (s.setFlags { s.flags with i := true }).advance

/-- CLV (R234). -/
def execClv (s : State) : Result := .next (s.setFlags { s.flags with v := false }).advance

/-- CLD (R235). -/
def execCld (s : State) : Result := .next (s.setFlags { s.flags with d := false }).advance

/-- SED (R236). -/
def execSed (s : State) : Result := .next (s.setFlags { s.flags with d := true }).advance

/-- NOP (R237). -/
def execNop (s : State) : Result := .next s.advance

/-- BRK (R238): the status is Halted(BRK), and pc keeps the index of the BRK. -/
def execBrk (s : State) : Result := .next (s.halt .brk)

/-- LABEL (R239): "no runtime effect, pure marker". -/
def execLabel (s : State) : Result := .next s.advance

/-- DRW (R240): the frame indication is asserted for this step (R15). -/
def execDrw (s : State) : Result := .next (s.setFrame true).advance

end Sys2Proof.Machine
end

