-- ==== Sys2Proof/Machine/Dispatch.lean ====
section
/-! DEFINITION. Dispatch by opcode (R102): one arm per constructor, one meaning per arm. -/

namespace Sys2Proof.Machine

-- The meaning of each instruction: the handler of its opcode, with its writes committed and pc set (R104, R105).
def exec (i : Instr) (s : State) : Host.Outcome State Fault Refusal :=
  match i with
  | .adc o => Sys2Proof.Machine.execAdc o s
  | .and o => Sys2Proof.Machine.execAnd o s
  | .asl o => Sys2Proof.Machine.execAsl o s
  | .bcc _ l => Sys2Proof.Machine.execBcc l s
  | .bcs _ l => Sys2Proof.Machine.execBcs l s
  | .beq _ l => Sys2Proof.Machine.execBeq l s
  | .bit o => Sys2Proof.Machine.execBit o s
  | .bmi _ l => Sys2Proof.Machine.execBmi l s
  | .bne _ l => Sys2Proof.Machine.execBne l s
  | .bpl _ l => Sys2Proof.Machine.execBpl l s
  | .brk _ => Sys2Proof.Machine.execBrk s
  | .bvc _ l => Sys2Proof.Machine.execBvc l s
  | .bvs _ l => Sys2Proof.Machine.execBvs l s
  | .clc _ => Sys2Proof.Machine.execClc s
  | .cld _ => Sys2Proof.Machine.execCld s
  | .cli _ => Sys2Proof.Machine.execCli s
  | .clv _ => Sys2Proof.Machine.execClv s
  | .cmp o => Sys2Proof.Machine.execCmp o s
  | .cpx o => Sys2Proof.Machine.execCpx o s
  | .cpy o => Sys2Proof.Machine.execCpy o s
  | .dec o => Sys2Proof.Machine.execDec o s
  | .dex _ => Sys2Proof.Machine.execDex s
  | .dey _ => Sys2Proof.Machine.execDey s
  | .drw _ => Sys2Proof.Machine.execDrw s
  | .eor o => Sys2Proof.Machine.execEor o s
  | .inc o => Sys2Proof.Machine.execInc o s
  | .inx _ => Sys2Proof.Machine.execInx s
  | .iny _ => Sys2Proof.Machine.execIny s
  | .jmp _ l => Sys2Proof.Machine.execJmp l s
  | .jsr _ l => Sys2Proof.Machine.execJsr l s
  | .lda o => Sys2Proof.Machine.execLda o s
  | .ldx o => Sys2Proof.Machine.execLdx o s
  | .ldy o => Sys2Proof.Machine.execLdy o s
  | .lsr o => Sys2Proof.Machine.execLsr o s
  | .nop _ => Sys2Proof.Machine.execNop s
  | .ora o => Sys2Proof.Machine.execOra o s
  | .pha _ => Sys2Proof.Machine.execPha s
  | .pla _ => Sys2Proof.Machine.execPla s
  | .rol o => Sys2Proof.Machine.execRol o s
  | .ror o => Sys2Proof.Machine.execRor o s
  | .rti _ => Sys2Proof.Machine.execRti s
  | .rts _ => Sys2Proof.Machine.execRts s
  | .sbc o => Sys2Proof.Machine.execSbc o s
  | .sec _ => Sys2Proof.Machine.execSec s
  | .sed _ => Sys2Proof.Machine.execSed s
  | .sei _ => Sys2Proof.Machine.execSei s
  | .sta o => Sys2Proof.Machine.execSta o s
  | .stx o => Sys2Proof.Machine.execStx o s
  | .sty o => Sys2Proof.Machine.execSty o s
  | .tax _ => Sys2Proof.Machine.execTax s
  | .tay _ => Sys2Proof.Machine.execTay s
  | .tsx _ => Sys2Proof.Machine.execTsx s
  | .txa _ => Sys2Proof.Machine.execTxa s
  | .txs _ => Sys2Proof.Machine.execTxs s
  | .tya _ => Sys2Proof.Machine.execTya s
  | .label _ => Sys2Proof.Machine.execLabel s

end Sys2Proof.Machine
end

