-- ==== Sys2Proof/WellFormed.lean ====
section
/-! DEFINITION. The well-formed instructions: those the verifier passes and a source line can spell. -/

namespace Sys2Proof

/-- Well-formed: the opcode admits the mode (`Instr.legal`, R85), and a line spells the instruction (`Instr.spelled`,
R69, R73, R75). -/
def Instr.wf (i : Instr) : Bool := i.legal && i.spelled

end Sys2Proof
end

