-- ==== Sys2Proof/Machine/Load.lean ====
section
/-! DEFINITION. The program load port (R11, R95): decoding, the label table, the verifier, the capacity and reset; and
the form of a delivered line (R60). -/

namespace Sys2Proof.Machine

/-! ## Lines as the Reader delivers them (R60, a duty of the host) -/

/-- R60 steps 1 and 2: the line is cut at its first `;` and trimmed. -/
def cutLine (t : Text) : Text := trim (t.takeWhile (· != ';'))

/-- R60: the delivered lines of a text, empty ones dropped. -/
def deliverLines (ls : List Text) : List Text := (ls.map cutLine).filter (· != [])

/-- A line the Reader can deliver: not empty, trimmed, without `;`. -/
def delivered (t : Text) : Bool := (t != []) && cutLine t == t

/-! ## Load errors -/

/-- Why a load is refused (R79, R81, R85, R95). -/
inductive LoadCode where
  /-- a decode error, codes 0x01 to 0x04 -/
  | decodeError (e : DecodeError)
  /-- ASSEMBLE_DUPLICATE_LABEL -/
  | duplicateLabel
  /-- VERIFY_ILLEGAL_MODE -/
  | illegalMode
  /-- LOAD_PROGRAM_TOO_LONG -/
  | programTooLong
  deriving DecidableEq, Repr

/-- The numeric codes (R79, R81, R85, R95). -/
def LoadCode.code : LoadCode → Nat
  | .decodeError e => e.code
  | .duplicateLabel => 0x05
  | .illegalMode => 0x06
  | .programTooLong => 0x07

/-- `LoadError(code, line)` (R11, R95). -/
structure LoadError where
  code : LoadCode
  line : Nat
  deriving DecidableEq, Repr

/-! ## The stages of R95 -/

/-- Stage 1: every line decoded in order, the first being line `i`. -/
def decodeLines (i : Nat) : List Text → Except LoadError (List Instr)
  | [] => .ok []
  | l :: ls =>
    match decode l with
    | .error e => .error ⟨.decodeError e, i⟩
    | .ok ins =>
      match decodeLines (i + 1) ls with
      | .error e => .error e
      | .ok p => .ok (ins :: p)

/-- Stage 2 (R80, R81): the scan of the records from index `i` on, with the table built so far. A label stands for the
index of the record after it. -/
def scanLabels (i : Nat) (lt : LabelTable) : List Instr → Except LoadError LabelTable
  | [] => .ok lt
  | ins :: p =>
    match ins with
    | .label n =>
      match lookupLabel lt n with
      | some _ => .error ⟨.duplicateLabel, i⟩
      | none => scanLabels (i + 1) (lt ++ [(n, i + 1)]) p
    | _ => scanLabels (i + 1) lt p

/-- Stage 2: LT of a program (R80). -/
def labelTable (p : List Instr) : Except LoadError LabelTable := scanLabels 0 [] p

/-- Stage 3 (R85): the first illegal record, the scan starting at index `i`. -/
def verifyFrom (i : Nat) : List Instr → Except LoadError Unit
  | [] => .ok ()
  | ins :: p => if ins.legal then verifyFrom (i + 1) p else .error ⟨.illegalMode, i⟩

/-- Stage 4: a program longer than IMEM_DEPTH is refused. -/
def checkCapacity (p : List Instr) : Except LoadError Unit :=
  match Config.imemDepth with
  | none => .ok ()
  | some d => if d < p.length then .error ⟨.programTooLong, d⟩ else .ok ()

/-- Stages 1 to 3 (R95): the verified sequence P and its label table LT. -/
def assemble (lines : List Text) : Except LoadError (List Instr × LabelTable) :=
  match decodeLines 0 lines with
  | .error e => .error e
  | .ok p =>
    match labelTable p with
    | .error e => .error e
    | .ok lt =>
      match verifyFrom 0 p with
      | .error e => .error e
      | .ok _ => .ok (p, lt)

/-- The load sequence (R95): the stages in order, then reset with P and LT installed. -/
def load (lines : List Text) : Except LoadError State :=
  match assemble lines with
  | .error e => .error e
  | .ok (p, lt) =>
    match checkCapacity p with
    | .error e => .error e
    | .ok _ => .ok (State.resetWith p lt)

end Sys2Proof.Machine
end

