-- ==== Sys2Proof/Machine/Step.lean ====
section
/-! DEFINITION. One step of the engine (R104), and how the host places one instruction. -/

namespace Sys2Proof.Machine

/-- The whole step (R104). Only a Running engine has one (R100). The fetch at the end of the program halts and does
nothing else (R101); otherwise the fetched instruction runs, and the post-instruction phase follows unless it faulted
(R103, R252). -/
def step (s : State) : Host.Outcome State Fault Refusal :=
  match s.status with
  | .halted r => .fault (.engineHalted r)
  | .faulted code i => .fault (.engineFaulted code i)
  | .running =>
    match s.beginStep.fetch with
    | none => .next (s.beginStep.halt .endOfProgram)
    | some i =>
      match exec i s.beginStep with
      | .next t => .next t.finishStep
      | .fault f => .fault f
      | .refused r => .refused r

/-- A program of one record placed in the program store with its label table, as a load installs them (R95); the index
at its start, and the engine running. Nothing else changes (log entry 4). -/
def State.withProgram (s : State) (p : List Instr) : State :=
  match labelTable p with
  | .ok lt => { s with program := p, labels := lt, pc := 0, status := .running }
  | .error _ => s

/-- The instruction of an opcode-table word placed where the next step fetches. A word that does not decode is no
record, and nothing is placed. -/
def State.withFetchWord (s : State) (nbits w : Nat) : State :=
  match decodeTableWord nbits w with
  | some i => s.withProgram [i]
  | none => s

end Sys2Proof.Machine
end

