-- ==== Sys2Proof/Safety.lean ====
section
/-! DEFINITION. The terms claims are stated in: what a step leaves alone, what an operand names, the label a control
transfer refers to, and the invariant of a run. -/

namespace Sys2Proof.Machine

/-! ## Frames -/

/-- A, X, Y and SP16 are as before. -/
def sameRegisters (s t : State) : Prop := t.a = s.a ∧ t.x = s.x ∧ t.y = s.y ∧ t.sp16 = s.sp16

/-- Every byte of memory reads as before. -/
def sameMemory (s t : State) : Prop := ∀ b, t.readByte b = s.readByte b

/-- Every byte of memory but the one at `a` reads as before. -/
def sameMemoryBut (a : Half) (s t : State) : Prop := ∀ b, b ≠ a → t.readByte b = s.readByte b

/-- The program store, the status, the frame indication and the count of draws are as before. -/
def sameEngine (s t : State) : Prop :=
  t.program = s.program ∧ t.labels = s.labels ∧ t.status = s.status ∧ t.frame = s.frame ∧ t.drawIndex = s.drawIndex

/-- The engine and the call stack are as before. -/
def sameControl (s t : State) : Prop := t.callStack = s.callStack ∧ sameEngine s t

/-- The state's registers, flags and index are the given ones. -/
def State.holds (t : State) (a x y : Byte) (sp : Half) (f : Flags) (pc : Nat) : Prop :=
  t.a = a ∧ t.x = x ∧ t.y = y ∧ t.sp16 = sp ∧ t.flags = f ∧ t.pc = pc

/-- The flags with Z and N set from a byte: Z where it is zero, N its bit 7 (R120). -/
def withNZ (f : Flags) (v : Byte) : Flags := { f with z := decide (v.toNat = 0), n := decide (128 ≤ v.toNat) }

/-- The state with the interrupt-disable flag set to `b`. -/
def State.withI (s : State) (b : Bool) : State := { s with flags := { s.flags with i := b } }

/-- What a raised fault leaves: the state before, with the status Faulted at its index (R252). -/
def State.faultedWith (s : State) (code : FaultCode) : State := { s with status := .faulted code s.pc }

/-! ## Operands -/

/-- The operand has a value to read: any mode but Implied and Relative (R111). -/
def readable : Operand → Bool
  | .implied | .relative => false
  | .immediate _ | .zeroPage _ | .zeroPageX _ | .zeroPageY _ | .absolute _ | .absoluteX _ | .absoluteY _
  | .indirectX _ | .indirectY _ => true

/-- The operand names a memory cell: one of the eight memory modes (R110). -/
def inMemory : Operand → Bool
  | .implied | .relative | .immediate _ => false
  | .zeroPage _ | .zeroPageX _ | .zeroPageY _ | .absolute _ | .absoluteX _ | .absoluteY _ | .indirectX _
  | .indirectY _ => true

/-- The address of the cell a memory operand names (R110); used only where `inMemory` holds. -/
def State.addressOf (s : State) (o : Operand) : Half := (s.ea o).getD 0

/-- The byte a readable operand stands for (R111): the immediate value, or the byte at the effective address. -/
def State.operandByte (s : State) : Operand → Byte
  | .immediate v => v
  | o => s.readByte (s.addressOf o)

/-! ## Encodings -/

/-- The encoding line of an instruction's rule: its mnemonic, its ordinal (R77), and the modes the verifier admits
(R85). -/
def encodedAs (op : Opcode) (name : String) (ordinal : Nat) (modes : List Mode) : Prop :=
  op.chars = name.toList ∧ opcodeOf name.toList = some op ∧ op.ordinal = ordinal ∧ ∀ m, op.legal m = true ↔ m ∈ modes

/-- "any mode (no check)" (R85). -/
def anyMode : List Mode :=
  [.immediate, .zeroPage, .zeroPageX, .zeroPageY, .absolute, .absoluteX, .absoluteY, .indirectX, .indirectY, .relative,
    .implied]

/-- The modes of INC and DEC (R85). -/
def cellModes : List Mode := [.zeroPage, .zeroPageX, .absolute, .absoluteX]

/-- A completed step's post-instruction phase has run (R103): the draw is in the entropy cell and has been counted. -/
def phaseRan (s t : State) : Prop :=
  t.readByte 0x00FE#16 = Config.entropy s.drawIndex ∧ t.drawIndex = s.drawIndex + 1

/-- A row of the operand forms' table (R64): the characters before the digits, how many digits there are, the
characters after them, and the operand of the digits' value. -/
structure NumericForm where
  lead : Text
  digits : Nat
  tail : Text
  operand : Nat → Operand

/-- The nine numeric rows of R64. -/
def numericForms : List NumericForm :=
  [⟨['#', '$'], 2, [], fun v => .immediate (BitVec.ofNat 8 v)⟩,
   ⟨['$'], 2, [], fun v => .zeroPage (BitVec.ofNat 8 v)⟩,
   ⟨['$'], 2, [',', 'X'], fun v => .zeroPageX (BitVec.ofNat 8 v)⟩,
   ⟨['$'], 2, [',', 'Y'], fun v => .zeroPageY (BitVec.ofNat 8 v)⟩,
   ⟨['$'], 4, [], fun v => .absolute (BitVec.ofNat 16 v)⟩,
   ⟨['$'], 4, [',', 'X'], fun v => .absoluteX (BitVec.ofNat 16 v)⟩,
   ⟨['$'], 4, [',', 'Y'], fun v => .absoluteY (BitVec.ofNat 16 v)⟩,
   ⟨['(', '$'], 2, [',', 'X', ')'], fun v => .indirectX (BitVec.ofNat 8 v)⟩,
   ⟨['(', '$'], 2, [')', ',', 'Y'], fun v => .indirectY (BitVec.ofNat 8 v)⟩]

/-! ## Shifts and rotates on numbers -/

/-- The shifts and rotates of R170 to R173, on the previous carry and a byte's value: the result and the bit shifted
out. -/
def shiftTable : List ((Operand → Instr) × (Bool → Nat → Nat × Bool)) :=
  [(Instr.asl, fun _ v => (2 * v % 256, decide (128 ≤ v))),
   (Instr.lsr, fun _ v => (v / 2, decide (v % 2 = 1))),
   (Instr.rol, fun c v => (2 * v % 256 + c.toNat, decide (128 ≤ v))),
   (Instr.ror, fun c v => (v / 2 + 128 * c.toNat, decide (v % 2 = 1)))]

/-! ## Control transfer -/

/-- The branch polarity table (R144): the flag each branch tests, and the value it branches on. -/
def branchTable : List ((Operand → Text → Instr) × (Flags → Bool) × Bool) :=
  [(Instr.bcc, Flags.c, false), (Instr.bcs, Flags.c, true), (Instr.beq, Flags.z, true), (Instr.bne, Flags.z, false),
   (Instr.bmi, Flags.n, true), (Instr.bpl, Flags.n, false), (Instr.bvc, Flags.v, false), (Instr.bvs, Flags.v, true)]

/-- The ten control-transfer instructions (R71). -/
def transferTable : List (Operand → Text → Instr) := Instr.jmp :: Instr.jsr :: branchTable.map Prod.fst

/-- The call stack has room for one more entry (R30). -/
def State.hasRoom (s : State) : Prop := ∀ d, Config.callStackDepth = some d → s.callStack.length ≠ d

/-! ## Loading -/

/-- The lines decode, one by one, to the records (R95 stage 1). -/
def decodesTo (lines : List Text) (p : List Instr) : Prop :=
  p.length = lines.length ∧
    ∀ (k : Nat) (line : Text), lines[k]? = some line → ∃ i : Instr, p[k]? = some i ∧ decode line = .ok i

/-- No label is defined twice among the first `n` records (R81). -/
def labelsDistinctBelow (n : Nat) (p : List Instr) : Prop :=
  ∀ (i j : Nat) (name : Text), i < j → j < n → p[i]? = some (.label name) → p[j]? ≠ some (.label name)

/-! ## The invariant of a run -/

/-- What every state of a run meets: memory in canonical form; SP16 in 0x00FF..0x01FF (R24); the index in the program
or at its end (R28); every record verified (R87); the label table that of the program (R80); every call-stack entry the
index of a JSR of the program, and no more of them than the call stack can hold (R30, R131). -/
structure Inv (s : State) : Prop where
  mem : s.mem.wf = true
  sp : 0x00FF ≤ s.sp16.toNat ∧ s.sp16.toNat ≤ 0x01FF
  pc : s.pc ≤ s.program.length
  verified : ∀ i ∈ s.program, i.legal = true
  labels : labelTable s.program = .ok s.labels
  calls : ∀ j ∈ s.callStack, ∃ o l, s.program[j]? = some (.jsr o l)
  depth : ∀ d, Config.callStackDepth = some d → s.callStack.length ≤ d

end Sys2Proof.Machine
end

