-- ==== Sys2Proof/Certificates/Slice0/Obligations.lean ====
section
/-! DEFINITION. The statements for the provers, each formalising a rule of the spec or resting on the sections
OBLIGATIONS.json cites. -/

open Sys2Proof Sys2Proof.Machine

/-! ## Encoding (30_encoding.md) -/

/-- Lines written out from the forms of R64 decode to the records they stand for, at least one of each family. -/
def Obligations.LinesDecodeAsTheSpecWritesThem : Prop :=
  decode ['L', 'D', 'A', ' ', '#', '$', '3', 'C'] = .ok (.lda (.immediate 0x3C#8)) ∧
  decode ['A', 'D', 'C', ' ', '$', '2', '0'] = .ok (.adc (.zeroPage 0x20#8)) ∧
  decode ['A', 'S', 'L'] = .ok (.asl .implied) ∧
  decode ['S', 'T', 'X', ' ', '(', '$', '4', '0', ')', ',', 'Y'] = .ok (.stx (.indirectY 0x40#8)) ∧
  decode ['L', 'D', 'A', ' ', '(', '$', '2', '0', ',', 'X', ')'] = .ok (.lda (.indirectX 0x20#8)) ∧
  decode ['L', 'D', 'A', ' ', '$', ' ', '1', '2', ' ', ',', ' ', 'X'] = .ok (.lda (.zeroPageX 0x12#8)) ∧
  decode ['S', 'T', 'A', ' ', '$', '1', '2', '3', '4', ',', 'Y'] = .ok (.sta (.absoluteY 0x1234#16)) ∧
  decode ['B', 'N', 'E', ' ', 'm', 'y', ' ', 'l'] = .ok (.bne .relative ['m', 'y', ' ', 'l']) ∧
  decode ['B', 'N', 'E', ' ', 'l', ':'] = .ok (.label ['B', 'N', 'E', ' ', 'l']) ∧
  decode ['C', 'L', 'C'] = .ok (.clc .implied) ∧
  decode ['P', 'H', 'P'] = .error .unknownMnemonic ∧
  decode ['L', 'D', 'A', ' ', '$', '1', '2', ',', 'Z'] = .error .badHex ∧
  decode ['L', 'D', 'A', ' ', '#', '$', '5'] = .error .malformedOperand

/-- Every well-formed instruction is read back from the line the encoder writes for it, with every operand and every
label name. -/
def Obligations.DecodeInvertsEncode : Prop := ∀ i : Instr, i.wf = true → decode (encode i) = .ok i

/-- R60: every line that the Reader delivers is not empty, is trimmed, and has no `;`; a text without `;` is delivered
trimmed, and one that is empty but for whitespace or a comment is dropped. -/
def Obligations.DeliveredLinesAreTrimmedAndCut : Prop :=
  (∀ (ls : List Text) (l : Text), l ∈ deliverLines ls → delivered l = true ∧ ';' ∉ l) ∧
  (∀ l : Text, ';' ∉ l → deliverLines [l] = if trim l = [] then [] else [trim l]) ∧
  (∀ l c : Text, ';' ∉ l → deliverLines [l ++ ';' :: c] = deliverLines [l])

/-- Every delivered line that decodes to a legal record decodes to a well-formed instruction: what the verifier passes
is what the encoder can spell. -/
def Obligations.VerifiedLinesAreWellFormed : Prop :=
  ∀ (line : Text) (i : Instr), delivered line = true → decode line = .ok i → i.legal = true → i.wf = true

/-- R66: every `#$hh`, in either letter case, is Immediate with its digits' value, whose upper byte in the record is
zero and whose byte is what the engine reads; so it decodes after any mnemonic. With a character that is no hexadecimal
digit in a digit's place it is DECODE_BAD_HEX (R63), and any other text after `#` is DECODE_MALFORMED_OPERAND. -/
def Obligations.ImmediateOperandsDecode : Prop :=
  (∀ (h l : Char) (d e : Nat), hexDigit h = some d → hexDigit l = some e →
    ∃ v : Byte, v.toNat = 16 * d + e ∧ (Operand.immediate v).value.toNat = 16 * d + e ∧
      (∀ transfer : Bool, classify transfer ['#', '$', h, l] = .ok (.immediate v)) ∧
      (∀ op : Opcode, op ≠ .label → decode (op.chars ++ [' ', '#', '$', h, l]) =
        .ok (op.build (.immediate v) (if op.isTransfer then ['#', '$', h, l] else []))) ∧
      ∀ s : State, s.readOperand (.immediate v) = .ok v) ∧
  (∀ (transfer : Bool) (h l : Char), hexDigit h = none ∨ hexDigit l = none →
    classify transfer ['#', '$', h, l] = .error .badHex) ∧
  (∀ (transfer : Bool) (t : Text), (∀ h l, t ≠ ['$', h, l]) →
    classify transfer ('#' :: t) = .error .malformedOperand)

/-- R63: the sixteen digits have the values 0 to 15, in either letter case, and no other character is a digit; a text of
digits has the base-16 value it spells, the first digit most significant; a text with any other character is
DECODE_BAD_HEX. Each numeric form of R64, with its two or four digits, is read as the operand of that value. -/
def Obligations.HexTextHasItsBaseSixteenValue : Prop :=
  "0123456789ABCDEF".toList.map hexDigit = (List.range 16).map some ∧
  "0123456789abcdef".toList.map hexDigit = (List.range 16).map some ∧
  (∀ c : Char, hexDigit c = none ↔ c ∉ "0123456789ABCDEFabcdef".toList) ∧
  (∀ (t : Text) (ds : List Nat), t ≠ [] → t.map hexDigit = ds.map some →
    hexFrom 0 t = .ok (Nat.ofDigits 16 ds.reverse)) ∧
  (∀ t : Text, (∃ c ∈ t, hexDigit c = none) → hexFrom 0 t = .error .badHex) ∧
  (∀ f ∈ numericForms, ∀ (transfer : Bool) (t : Text) (ds : List Nat), t.length = f.digits →
    t.map hexDigit = ds.map some →
    classify transfer (f.lead ++ t ++ f.tail) = .ok (f.operand (Nat.ofDigits 16 ds.reverse)))

/-- An ASCII line that ends with a colon is a label line whatever stands before it: its name is the rest, trimmed, and
its record has the placeholders Implied and 0xFFFF (R62, R73). -/
def Obligations.LabelLinesAreRecognisedFirst : Prop :=
  ∀ t : Text, (∀ c ∈ t, c.toNat < 0x80) → decode (t ++ [':']) = .ok (.label (trim t)) ∧
    (Instr.label (trim t)).record = ⟨55#6, 10#4, 0xFFFF#16, trim t⟩

/-- The opcode name table is closed: a text is a mnemonic exactly when it is one of the 55 names, and no two opcodes
share one. A line with a character above 0x7F is DECODE_NON_ASCII; a non-empty ASCII line that is no label line and
whose first three characters are no mnemonic is DECODE_UNKNOWN_MNEMONIC (R61, R70, R72, R74). After a mnemonic, an
operand that the lexer refuses is the decoder's error (R72). A text that begins with `#`, `$` or `(` and has the shape
of no numeric form is DECODE_MALFORMED_OPERAND; one that has such a shape but no digit in some digit's place is
DECODE_BAD_HEX, where `$hh,X` and `$hh,Y` are no shape of `$hhhh`; any other operand is DECODE_MALFORMED_OPERAND unless
the opcode is a control transfer (R63, R64, R65, R67 to R69). -/
def Obligations.UnreadableLinesAreRefused : Prop :=
  (∀ (m : Text) (op : Opcode), opcodeOf m = some op ↔ op ≠ .label ∧ op.chars = m) ∧
  (∀ line : Text, (∃ c ∈ line, 0x80 ≤ c.toNat) → decode line = .error .nonAscii) ∧
  (∀ line : Text, line ≠ [] → (∀ c ∈ line, c.toNat < 0x80) → line.getLast? ≠ some ':' →
    (line.length < 3 ∨ ∀ op : Opcode, op = .label ∨ op.chars ≠ line.take 3) →
    decode line = .error .unknownMnemonic) ∧
  (∀ (op : Opcode) (field : Text) (e : DecodeError), op ≠ .label → (∀ c ∈ field, c.toNat < 0x80) →
    field.getLast? ≠ some ':' → classify op.isTransfer (stripWs field) = .error e →
    decode (op.chars ++ field) = .error e) ∧
  (∀ (transfer : Bool) (c : Char) (t : Text), c ∈ ['#', '$', '('] →
    (∀ f ∈ numericForms, ∀ ds : Text, ds.length = f.digits → c :: t ≠ f.lead ++ ds ++ f.tail) →
    classify transfer (c :: t) = .error .malformedOperand) ∧
  (∀ f ∈ numericForms, ∀ (transfer : Bool) (ds : Text), ds.length = f.digits → (∃ c ∈ ds, hexDigit c = none) →
    (f.tail = [] → ds.drop 2 ≠ [',', 'X'] ∧ ds.drop 2 ≠ [',', 'Y']) →
    classify transfer (f.lead ++ ds ++ f.tail) = .error .badHex) ∧
  (∀ (c : Char) (t : Text), c ∉ ['#', '$', '('] → classify false (c :: t) = .error .malformedOperand)

/-- R95: the stages in order. The first line that does not decode; else the second definition of a label; else the
first illegal record; else a program longer than IMEM_DEPTH; each refuses the load with its code and line. Otherwise
the program and its label table are installed and the engine is reset. The empty program loads unless IMEM_DEPTH
forbids it, which no bound can. -/
def Obligations.LoadStagesAndErrors : Prop :=
  (∀ lines k line e, lines[k]? = some line → decode line = .error e →
    (∀ j < k, ∀ l, lines[j]? = some l → ∃ i, decode l = .ok i) → load lines = .error ⟨.decodeError e, k⟩) ∧
  (∀ lines p i j name, decodesTo lines p → i < j → p[i]? = some (.label name) → p[j]? = some (.label name) →
    labelsDistinctBelow j p → load lines = .error ⟨.duplicateLabel, j⟩) ∧
  (∀ lines p k i, decodesTo lines p → labelsDistinctBelow p.length p → p[k]? = some i → i.legal = false →
    (∀ j < k, ∀ x, p[j]? = some x → x.legal = true) → load lines = .error ⟨.illegalMode, k⟩) ∧
  (∀ lines p, decodesTo lines p → labelsDistinctBelow p.length p → (∀ i ∈ p, i.legal = true) →
    ∃ lt, labelTable p = .ok lt ∧ load lines = match Config.imemDepth with
      | some d => if d < p.length then .error ⟨.programTooLong, d⟩ else .ok (State.resetWith p lt)
      | none => .ok (State.resetWith p lt)) ∧
  load [] = .ok State.reset ∧
  LoadCode.duplicateLabel.code = 0x05 ∧ LoadCode.illegalMode.code = 0x06 ∧ LoadCode.programTooLong.code = 0x07

/-- R87: what is assembled is decoded from the lines, one record a line, and every record of it is verified; a load
that succeeds installs what is assembled, and leaves the reset state. -/
def Obligations.LoadedProgramsAreVerified : Prop :=
  (∀ lines p lt, assemble lines = .ok (p, lt) →
    decodesTo lines p ∧ labelTable p = .ok lt ∧ ∀ i ∈ p, i.legal = true) ∧
  (∀ lines s, load lines = .ok s → ∃ p lt, assemble lines = .ok (p, lt) ∧ s = State.resetWith p lt)

/-- R80: in an assembled program a name stands for an index exactly when the record before that index is a LABEL of that
name, and a name that no LABEL has is not in the table. -/
def Obligations.LabelsStandForTheNextIndex : Prop :=
  ∀ lines p lt, assemble lines = .ok (p, lt) → ∀ name k,
    (lookupLabel lt name = some k ↔ ∃ j, p[j]? = some (.label name) ∧ k = j + 1)

/-! ## Reset (10_state.md, 70_reset_and_hazards.md) -/

/-- R34: every reset value the table gives. M[0x00FE] is a draw, so nothing is said of it. -/
def Obligations.ResetValues : Prop :=
  ∀ p lt, (State.resetWith p lt).holds 0x00#8 0x00#8 0x00#8 0x01FF#16 ⟨false, false, false, false, false, false⟩ 0 ∧
    (State.resetWith p lt).sp = 0xFF#8 ∧ (State.resetWith p lt).callStack = [] ∧
    (∀ b, b ≠ 0x00FE#16 → (State.resetWith p lt).readByte b = 0x00#8) ∧
    (State.resetWith p lt).status = .running ∧ (State.resetWith p lt).frame = false

/-- The state after reset meets the invariant of a run. -/
def Obligations.ResetMeetsInvariant : Prop := Inv State.reset

/-- The state that a load of an assembled program leaves meets the invariant of a run. -/
def Obligations.LoadedStatesMeetInvariant : Prop :=
  ∀ lines p lt, assemble lines = .ok (p, lt) → Inv (State.resetWith p lt)

/-! ## Memory (20_memory.md) -/

/-- A read gives the byte last written: a canonical memory reads back what was stored, at all 65536 addresses, and a
store changes no other byte (R40, R41, R53). -/
def Obligations.ReadsSeeTheLastWrite : Prop :=
  ∀ (s : State) (a b : Half) (v : Byte), s.mem.wf = true →
    (s.writeByte a v).readByte b = if b = a then v else s.readByte b

/-- Every store keeps memory in canonical form, and two canonical memories that read alike at every address are the
same data. -/
def Obligations.CanonicalMemoryIsUnique : Prop :=
  (∀ (m : Memory) (a : Half) (v : Byte), m.wf = true → (m.write a v).wf = true) ∧
  (∀ m m' : Memory, m.wf = true → m'.wf = true → (∀ a, m.read a = m'.read a) → m = m')

/-- R44 and R110: a pointer's low byte is in its first cell and its high byte in its second; the effective address of
each of the eight memory modes, as numbers; the other three modes have none. -/
def Obligations.EffectiveAddresses : Prop :=
  ∀ s : State,
    (∀ lo hi, (s.readPointer lo hi).toNat = 256 * (s.readByte hi).toNat + (s.readByte lo).toNat) ∧
    (∀ v, ∃ a, s.ea (.zeroPage v) = some a ∧ a.toNat = v.toNat) ∧
    (∀ v, ∃ a, s.ea (.zeroPageX v) = some a ∧ a.toNat = (v.toNat + s.x.toNat) % 256) ∧
    (∀ v, ∃ a, s.ea (.zeroPageY v) = some a ∧ a.toNat = (v.toNat + s.y.toNat) % 256) ∧
    (∀ v, s.ea (.absolute v) = some v) ∧
    (∀ v, ∃ a, s.ea (.absoluteX v) = some a ∧ a.toNat = (v.toNat + s.x.toNat) % 65536) ∧
    (∀ v, ∃ a, s.ea (.absoluteY v) = some a ∧ a.toNat = (v.toNat + s.y.toNat) % 65536) ∧
    (∀ v, ∃ a, s.ea (.indirectX v) = some a ∧
      a.toNat = 256 * (s.readByte (BitVec.ofNat 16 ((v.toNat + s.x.toNat + 1) % 256))).toNat +
        (s.readByte (BitVec.ofNat 16 ((v.toNat + s.x.toNat) % 256))).toNat) ∧
    (∀ v, ∃ a, s.ea (.indirectY v) = some a ∧
      a.toNat = (256 * (s.readByte (BitVec.ofNat 16 ((v.toNat + 1) % 256))).toNat +
        (s.readByte (BitVec.ofNat 16 v.toNat)).toNat + s.y.toNat) % 65536) ∧
    (∀ v, s.ea (.immediate v) = none) ∧ s.ea .relative = none ∧ s.ea .implied = none

/-- R111 to R113: the value an operand is read as, the address a store goes to, and the target of a read-modify-write
instruction, with the fault of each mode that has none; what that target reads as, and what writing it does. -/
def Obligations.OperandsAreReadAndTargeted : Prop :=
  ∀ (s : State) (o : Operand),
    (∀ v, s.readOperand (.immediate v) = .ok v) ∧
    (∀ a, s.ea o = some a → s.readOperand o = .ok (s.readByte a) ∧ s.storeAddr o = .ok a ∧
      ∀ acc, s.rmwTarget acc o = .ok (.cell a)) ∧
    (s.ea o = none → s.storeAddr o = .error .noStoreTarget ∧ s.rmwTarget false o = .error .noStoreTarget ∧
      (o ≠ .implied → s.rmwTarget true o = .error .noStoreTarget)) ∧
    s.readOperand .implied = .error .operandMissing ∧ s.readOperand .relative = .error .operandMissing ∧
    s.rmwTarget true .implied = .ok .acc ∧
    s.rmwRead .acc = s.a ∧ (∀ a, s.rmwRead (.cell a) = s.readByte a) ∧
    (∀ v, s.rmwWrite .acc v = { s with a := v }) ∧ (∀ a v, s.rmwWrite (.cell a) v = { s with mem := s.mem.write a v })

/-! ## The step (40_engine_and_addressing.md §1) -/

/-- A step runs the record at the index: where it faults, the step ends there; where it does not, the post-instruction
phase follows. That record is what the line at the index decodes to, where the program is decoded from lines.
The last clause, that a decoded opcode-table word placed for the fetch is what the next step runs, is wholly the
model's choice (log entry 4), and so is it that the frame indication is off at a step's start (log entry 7). -/
def Obligations.StepRunsTheFetchedInstruction : Prop :=
  (∀ (s t : State) (i : Instr), s.status = .running → s.program[s.pc]? = some i →
    exec i { s with frame := false } = .next t →
    step s = .next (match t.status with
      | .faulted _ _ => t
      | _ => t.postInstruction)) ∧
  (∀ (s : State) (lines : List Text) (line : Text) (i : Instr), decodesTo lines s.program →
    lines[s.pc]? = some line → decode line = .ok i → s.program[s.pc]? = some i) ∧
  (∀ (s : State) (nbits w : Nat) (i : Instr), decodeTableWord nbits w = some i →
    (s.withFetchWord nbits w).status = .running ∧
    (s.withFetchWord nbits w).program[(s.withFetchWord nbits w).pc]? = some i)

/-- A fetch at or past the end of the program halts the engine with END and changes nothing else (R101), but that the
frame indication, which is for one step, goes off (log entry 7). -/
def Obligations.FetchAtTheEndHalts : Prop :=
  ∀ s : State, s.status = .running → s.program.length ≤ s.pc →
    step s = .next { s with status := .halted .endOfProgram, frame := false }

/-- R33: no step leaves Halted or Faulted, and a Running engine always has one (R9, R100). -/
def Obligations.OnlyARunningEngineSteps : Prop :=
  ∀ s : State, (∃ t, step s = .next t) ↔ s.status = .running

/-- R103: after an instruction that completes, cell 0x00FE holds the draw, cell 0x00FF the code of a key event or what
the instruction left there, every other byte, register and flag what the instruction left; after a fault none of this
happens. -/
def Obligations.PostInstructionPhase : Prop :=
  ∀ (s u : State) (i : Instr), s.status = .running → s.program[s.pc]? = some i →
    exec i { s with frame := false } = .next u →
    ((∀ code k, u.status ≠ .faulted code k) → ∃ t, step s = .next t ∧
      t.readByte 0x00FE#16 = Config.entropy u.drawIndex ∧
      t.readByte 0x00FF#16 = (match Config.keyEvent u.drawIndex with
        | some key => key
        | none => u.readByte 0x00FF#16) ∧
      (∀ b, b ≠ 0x00FE#16 → b ≠ 0x00FF#16 → t.readByte b = u.readByte b) ∧
      t.holds u.a u.x u.y u.sp16 u.flags u.pc ∧ t.callStack = u.callStack ∧ t.program = u.program ∧
      t.labels = u.labels ∧ t.status = u.status ∧ t.frame = u.frame ∧ t.drawIndex = u.drawIndex + 1) ∧
    ((∃ code k, u.status = .faulted code k) → step s = .next u)

/-- R107: a step that ends in the Faulted status has changed the status alone: the code is recorded with the faulting
instruction's index, and there was no post-instruction phase. (The frame indication goes off: log entry 7.) -/
def Obligations.FaultsArePrecise : Prop :=
  ∀ (s t : State) (code : FaultCode) (k : Nat), step s = .next t → t.status = .faulted code k →
    t = { s with status := .faulted code s.pc, frame := false }

/-- R250: a verified, spellable record raises a fault exactly under the table's condition, and the codes are the
table's. -/
def Obligations.FaultsAreRaisedExactlyAsTabled : Prop :=
  (∀ (i : Instr) (s t : State), i.wf = true → s.status = .running → exec i s = .next t →
    let faults := fun code => t.status = .faulted code s.pc
    (faults .unresolvedLabel ↔ i.opcode.isTransfer = true ∧ lookupLabel s.labels i.labelName = none) ∧
    (faults .stackOverflow ↔ i.opcode = .pha ∧ s.sp16 = 0x00FF#16) ∧
    (faults .stackUnderflow ↔ i.opcode = .pla ∧ s.sp16 = 0x01FF#16) ∧
    (faults .callStackEmpty ↔ i.opcode = .rts ∧ s.callStack = []) ∧
    (faults .callStackOverflow ↔ i.opcode = .jsr ∧ (lookupLabel s.labels i.labelName).isSome = true ∧
      Config.callStackDepth = some s.callStack.length) ∧
    (faults .operandMissing ↔ i.operand.mode = .implied ∧
      (i.opcode ∈ [Opcode.and, .ora, .eor, .cmp, .lda, .ldx, .ldy] ∨
        (i.opcode = .adc ∨ i.opcode = .sbc) ∧ s.flags.d = false)) ∧
    (faults .noStoreTarget ↔ i.opcode = .sta ∧ (i.operand.mode = .immediate ∨ i.operand.mode = .implied)) ∧
    (faults .rtiUnsupported ↔ i.opcode = .rti) ∧
    (faults .decimalUnsupported ↔ (i.opcode = .adc ∨ i.opcode = .sbc) ∧ s.flags.d = true)) ∧
  [FaultCode.unresolvedLabel, .stackOverflow, .stackUnderflow, .callStackEmpty, .callStackOverflow, .operandMissing,
    .noStoreTarget, .rtiUnsupported, .decimalUnsupported].map FaultCode.code =
    [0x10, 0x11, 0x12, 0x13, 0x14, 0x15, 0x16, 0x17, 0x18]

/-- R270: the engine halts by a BRK, whose index pc keeps, or by the end of the program, and by nothing else. -/
def Obligations.OnlyBrkAndTheEndHalt : Prop :=
  ∀ (s t : State), step s = .next t →
    (t.status = .halted .brk ↔ ∃ o, s.program[s.pc]? = some (.brk o)) ∧
    (t.status = .halted .endOfProgram ↔ s.program.length ≤ s.pc) ∧
    (t.status = .halted .brk → t.pc = s.pc)

/-- Every step keeps the invariant of a run, from every state that meets it: memory canonical, SP16 in 0x00FF..0x01FF
(R24), the index in the program or at its end (R28), the program verified (R87) with its own label table (R80), the
call stack made of JSR indices within its capacity (R30). -/
def Obligations.StepKeepsInvariant : Prop := ∀ s t : State, Inv s → step s = .next t → Inv t

/-- R56: no step changes the program store: no record, no label, no label index. -/
def Obligations.ProgramStoreNeverChanges : Prop :=
  ∀ s t : State, step s = .next t → t.program = s.program ∧ t.labels = s.labels

/-- R108, with the writers named in R21 to R26: a register, a flag or the call stack changes only by an instruction that
is named as its writer. -/
def Obligations.OnlyTheNamedInstructionsWrite : Prop :=
  ∀ (i : Instr) (s t : State), exec i s = .next t →
    (t.a ≠ s.a → i.opcode ∈ [Opcode.lda, .txa, .tya, .pla, .adc, .sbc, .and, .ora, .eor] ∨
      i.opcode ∈ [Opcode.asl, .lsr, .rol, .ror] ∧ i.operand = .implied) ∧
    (t.x ≠ s.x → i.opcode ∈ [Opcode.ldx, .tax, .tsx, .inx, .dex]) ∧
    (t.y ≠ s.y → i.opcode ∈ [Opcode.ldy, .tay, .iny, .dey]) ∧
    (t.sp16 ≠ s.sp16 → i.opcode ∈ [Opcode.pha, .pla, .txs]) ∧
    (t.callStack ≠ s.callStack → i.opcode ∈ [Opcode.jsr, .rts]) ∧
    (t.flags.c ≠ s.flags.c → i.opcode ∈ [Opcode.adc, .sbc, .asl, .lsr, .rol, .ror, .cmp, .cpx, .cpy, .clc, .sec]) ∧
    ((t.flags.z ≠ s.flags.z ∨ t.flags.n ≠ s.flags.n) → i.opcode ∈ [Opcode.inx, .iny, .dex, .dey, .inc, .dec, .lda, .ldx,
      .ldy, .tax, .tay, .txa, .tya, .tsx, .pla, .and, .ora, .eor, .adc, .sbc, .asl, .lsr, .rol, .ror, .bit, .cmp, .cpx,
      .cpy]) ∧
    (t.flags.i ≠ s.flags.i → i.opcode ∈ [Opcode.cli, .sei]) ∧
    (t.flags.d ≠ s.flags.d → i.opcode ∈ [Opcode.cld, .sed]) ∧
    (t.flags.v ≠ s.flags.v → i.opcode ∈ [Opcode.adc, .sbc, .bit, .clv])

/-- A byte of memory changes only by a store, a read-modify-write instruction on a cell, or a push, and only the byte
at the address that instruction names (R46, R108). -/
def Obligations.OnlyTheNamedByteIsStored : Prop :=
  ∀ (i : Instr) (s t : State) (b : Half), exec i s = .next t → t.readByte b ≠ s.readByte b →
    (i.opcode ∈ [Opcode.sta, .stx, .sty, .asl, .lsr, .rol, .ror, .inc, .dec] ∧ s.ea i.operand = some b) ∨
    (i.opcode = .pha ∧ b = s.sp16)

/-- R105: a step that runs an instruction which neither redirects, halts nor faults ends with pc one higher. -/
def Obligations.IndexAdvancesUnlessRedirected : Prop :=
  ∀ (i : Instr) (s t : State), s.status = .running → exec i s = .next t → t.status = .running →
    i.opcode.isTransfer = false → i.opcode ≠ .rts → i.opcode ≠ .brk → i.opcode ≠ .rti → t.pc = s.pc + 1

/-! ## What cannot be observed (10_state.md §10, 60_exceptions.md) -/

/-- No instruction reads the frame indication: two states that differ in it alone take the same step (R15, R35). After
a step it is asserted exactly if the instruction was a DRW. -/
def Obligations.FrameIndicationIsWrittenByDrwAndReadByNone : Prop :=
  (∀ (s : State) (b : Bool), step { s with frame := b } = step s) ∧
  (∀ s t : State, step s = .next t → (t.frame = true ↔ ∃ o, s.program[s.pc]? = some (.drw o)))

/-- The I flag masks nothing: changing it changes no step but in the I flag itself (R27, R260). -/
def Obligations.InterruptDisableMasksNothing : Prop :=
  ∀ (s t : State) (b : Bool), step s = .next t → ∃ b', step (s.withI b) = .next (t.withI b')

/-- The draws reach the platform cells alone: two states that differ in the count of draws take steps that differ in
that count and in the bytes at 0x00FE and 0x00FF (R47, R48, R108). -/
def Obligations.DrawsReachOnlyThePlatformCells : Prop :=
  ∀ (s t : State) (n : Nat), step s = .next t → ∃ t', step { s with drawIndex := n } = .next t' ∧
    t'.holds t.a t.x t.y t.sp16 t.flags t.pc ∧ t'.callStack = t.callStack ∧ t'.program = t.program ∧
    t'.labels = t.labels ∧ t'.status = t.status ∧ t'.frame = t.frame ∧
    ∀ b, b ≠ 0x00FE#16 → b ≠ 0x00FF#16 → t'.readByte b = t.readByte b

/-! ## Arithmetic and logic (42_arithmetic_logic.md) -/

/-- R150: ADC adds without a carry in; C is the carry out of the 16-bit sum, V the signed overflow, N and Z from the
result. With D = 1 it faults before its operand is read; without an operand it faults. -/
def Obligations.AdcResult : Prop :=
  encodedAs .adc "ADC" 0 anyMode ∧
  (∀ (o : Operand) (s : State),
    (s.flags.d = false → readable o = true → ∃ t, exec (.adc o) s = .next t ∧
      t.a.toNat = (s.a.toNat + (s.operandByte o).toNat) % 256 ∧
      t.holds t.a s.x s.y s.sp16
        { withNZ s.flags t.a with
          c := decide (255 < s.a.toNat + (s.operandByte o).toNat)
          v := decide (s.a.toInt + (s.operandByte o).toInt < -128 ∨ 127 < s.a.toInt + (s.operandByte o).toInt) }
        (s.pc + 1) ∧ sameMemory s t ∧ sameControl s t) ∧
    (s.flags.d = true → exec (.adc o) s = .next (s.faultedWith .decimalUnsupported)) ∧
    (s.flags.d = false → readable o = false → exec (.adc o) s = .next (s.faultedWith .operandMissing)))

/-- R151: SBC subtracts without a borrow in; C is "no borrow", V the signed overflow, N and Z from the result; its
faults are ADC's. -/
def Obligations.SbcResult : Prop :=
  encodedAs .sbc "SBC" 42 anyMode ∧
  (∀ (o : Operand) (s : State),
    (s.flags.d = false → readable o = true → ∃ t, exec (.sbc o) s = .next t ∧
      (t.a.toNat : Int) = ((s.a.toNat : Int) - (s.operandByte o).toNat) % 256 ∧
      t.holds t.a s.x s.y s.sp16
        { withNZ s.flags t.a with
          c := decide ((s.operandByte o).toNat ≤ s.a.toNat)
          v := decide (s.a.toInt - (s.operandByte o).toInt < -128 ∨ 127 < s.a.toInt - (s.operandByte o).toInt) }
        (s.pc + 1) ∧ sameMemory s t ∧ sameControl s t) ∧
    (s.flags.d = true → exec (.sbc o) s = .next (s.faultedWith .decimalUnsupported)) ∧
    (s.flags.d = false → readable o = false → exec (.sbc o) s = .next (s.faultedWith .operandMissing)))

/-- R152 to R154: AND, ORA and EOR combine the accumulator with the operand bit by bit, write N and Z from the result
and change nothing else; without an operand they fault. -/
def Obligations.LogicResults : Prop :=
  encodedAs .and "AND" 1 anyMode ∧ encodedAs .ora "ORA" 35 anyMode ∧ encodedAs .eor "EOR" 24 anyMode ∧
  (∀ p ∈ [(Instr.and, and), (Instr.ora, or), (Instr.eor, xor)], ∀ (o : Operand) (s : State),
    (readable o = true → ∃ t, exec (p.1 o) s = .next t ∧
      (∀ k < 8, t.a.getLsbD k = p.2 (s.a.getLsbD k) ((s.operandByte o).getLsbD k)) ∧
      t.holds t.a s.x s.y s.sp16 (withNZ s.flags t.a) (s.pc + 1) ∧ sameMemory s t ∧ sameControl s t) ∧
    (readable o = false → exec (p.1 o) s = .next (s.faultedWith .operandMissing)))

/-- R155: BIT sets Z from A & M, N and V from bits 7 and 6 of the operand, and writes no register. Without an operand,
which no verified BIT has, it faults (R111). -/
def Obligations.BitResult : Prop :=
  encodedAs .bit "BIT" 6 [.zeroPage, .absolute] ∧
  (∀ (o : Operand) (s : State),
    (readable o = false → exec (.bit o) s = .next (s.faultedWith .operandMissing)) ∧
    (readable o = true → ∃ t, exec (.bit o) s = .next t ∧
    t.holds s.a s.x s.y s.sp16
      { s.flags with
        z := decide (s.a.toNat &&& (s.operandByte o).toNat = 0)
        n := decide (128 ≤ (s.operandByte o).toNat)
        v := decide (64 ≤ (s.operandByte o).toNat % 128) }
      (s.pc + 1) ∧ sameMemory s t ∧ sameControl s t))

/-! ## Shifts, compares, increments and decrements (43_shift_compare_incdec.md) -/

/-- R170 to R173: ASL, LSR, ROL and ROR. On the accumulator: the result and the carry of the rule, N and Z from the
result, and no byte of memory changes. On a memory cell: the byte at the effective address is replaced by the result,
and no other byte and no register changes. In a mode that names neither a cell nor the accumulator, which no verified
record has, they fault (R113). -/
def Obligations.ShiftsAndRotates : Prop :=
  encodedAs .asl "ASL" 2 (.implied :: cellModes) ∧ encodedAs .lsr "LSR" 33 (.implied :: cellModes) ∧
  encodedAs .rol "ROL" 38 (.implied :: cellModes) ∧ encodedAs .ror "ROR" 39 (.implied :: cellModes) ∧
  (∀ p ∈ shiftTable, ∀ s : State,
    (∃ t, exec (p.1 .implied) s = .next t ∧
      t.a.toNat = (p.2 s.flags.c s.a.toNat).1 ∧
      t.holds t.a s.x s.y s.sp16 { withNZ s.flags t.a with c := (p.2 s.flags.c s.a.toNat).2 } (s.pc + 1) ∧
      sameMemory s t ∧ sameControl s t) ∧
    (∀ o, inMemory o = true → s.mem.wf = true → ∃ t, exec (p.1 o) s = .next t ∧
      (t.readByte (s.addressOf o)).toNat = (p.2 s.flags.c (s.readByte (s.addressOf o)).toNat).1 ∧
      t.holds s.a s.x s.y s.sp16
        { withNZ s.flags (t.readByte (s.addressOf o)) with c := (p.2 s.flags.c (s.readByte (s.addressOf o)).toNat).2 }
        (s.pc + 1) ∧ sameMemoryBut (s.addressOf o) s t ∧ sameControl s t) ∧
    (∀ o, inMemory o = false → o ≠ .implied → exec (p.1 o) s = .next (s.faultedWith .noStoreTarget)))

/-- R174 to R177: a compare of A, X or Y with the operand, unsigned. Equal sets Z and C, greater sets N and C, less
clears N; every flag not named keeps its value, and no register is written. Without an operand it faults. -/
def Obligations.CompareResults : Prop :=
  encodedAs .cmp "CMP" 17 anyMode ∧ encodedAs .cpx "CPX" 18 [.immediate, .zeroPage, .absolute] ∧
  encodedAs .cpy "CPY" 19 [.immediate, .zeroPage, .absolute] ∧
  (∀ p ∈ [(Instr.cmp, State.a), (Instr.cpx, State.x), (Instr.cpy, State.y)], ∀ (o : Operand) (s : State),
    (readable o = true → ∃ t, exec (p.1 o) s = .next t ∧
      t.holds s.a s.x s.y s.sp16
        (if (p.2 s).toNat = (s.operandByte o).toNat then { s.flags with z := true, c := true }
          else if (s.operandByte o).toNat < (p.2 s).toNat then { s.flags with n := true, c := true }
          else { s.flags with n := false })
        (s.pc + 1) ∧ sameMemory s t ∧ sameControl s t) ∧
    (readable o = false → exec (p.1 o) s = .next (s.faultedWith .operandMissing)))

/-- R178 and R179: INC and DEC replace the byte at the effective address by itself plus or minus one modulo 256, set N
and Z from it, and change no other byte, no register and no other flag. In a mode that names no cell, which no verified
record has, they fault (R113). -/
def Obligations.IncrementsOfAMemoryCell : Prop :=
  encodedAs .inc "INC" 25 cellModes ∧ encodedAs .dec "DEC" 20 cellModes ∧
  (∀ p ∈ [(Instr.inc, 1), (Instr.dec, 255)], ∀ (o : Operand) (s : State),
    (inMemory o = false → exec (p.1 o) s = .next (s.faultedWith .noStoreTarget)) ∧
    (s.mem.wf = true → inMemory o = true → ∃ t, exec (p.1 o) s = .next t ∧
      (t.readByte (s.addressOf o)).toNat = ((s.readByte (s.addressOf o)).toNat + p.2) % 256 ∧
      t.holds s.a s.x s.y s.sp16 (withNZ s.flags (t.readByte (s.addressOf o))) (s.pc + 1) ∧
      sameMemoryBut (s.addressOf o) s t ∧ sameControl s t))

/-- R180 to R183: INX, INY, DEX and DEY wrap modulo 256, set N and Z from the register, and change nothing else. -/
def Obligations.IncrementsOfAnIndexRegister : Prop :=
  encodedAs .inx "INX" 26 [.implied] ∧ encodedAs .iny "INY" 27 [.implied] ∧ encodedAs .dex "DEX" 21 [.implied] ∧
  encodedAs .dey "DEY" 22 [.implied] ∧
  (∀ (o : Operand) (s : State),
    (∀ p ∈ [(Instr.inx, 1), (Instr.dex, 255)], ∃ t, exec (p.1 o) s = .next t ∧ t.x.toNat = (s.x.toNat + p.2) % 256 ∧
      t.holds s.a t.x s.y s.sp16 (withNZ s.flags t.x) (s.pc + 1) ∧ sameMemory s t ∧ sameControl s t) ∧
    (∀ p ∈ [(Instr.iny, 1), (Instr.dey, 255)], ∃ t, exec (p.1 o) s = .next t ∧ t.y.toNat = (s.y.toNat + p.2) % 256 ∧
      t.holds s.a s.x t.y s.sp16 (withNZ s.flags t.y) (s.pc + 1) ∧ sameMemory s t ∧ sameControl s t))

/-! ## Loads, stores, transfers and the data stack (44_load_store_transfer_stack.md) -/

/-- R200 to R202: a load moves the operand's byte into its register, sets N and Z from it and changes nothing else; the
address is computed with the registers as they were. Without an operand it faults. -/
def Obligations.LoadResults : Prop :=
  encodedAs .lda "LDA" 30 anyMode ∧ encodedAs .ldx "LDX" 31 anyMode ∧ encodedAs .ldy "LDY" 32 anyMode ∧
  (∀ (o : Operand) (s : State),
    (readable o = true →
      (∃ t, exec (.lda o) s = .next t ∧
        t.holds (s.operandByte o) s.x s.y s.sp16 (withNZ s.flags (s.operandByte o)) (s.pc + 1) ∧
        sameMemory s t ∧ sameControl s t) ∧
      (∃ t, exec (.ldx o) s = .next t ∧
        t.holds s.a (s.operandByte o) s.y s.sp16 (withNZ s.flags (s.operandByte o)) (s.pc + 1) ∧
        sameMemory s t ∧ sameControl s t) ∧
      (∃ t, exec (.ldy o) s = .next t ∧
        t.holds s.a s.x (s.operandByte o) s.sp16 (withNZ s.flags (s.operandByte o)) (s.pc + 1) ∧
        sameMemory s t ∧ sameControl s t)) ∧
    (readable o = false → ∀ load ∈ [Instr.lda, .ldx, .ldy], exec (load o) s = .next (s.faultedWith .operandMissing)))

/-- R203 to R205: a store writes its register's byte at the effective address; no other byte, no register and no flag
changes. In a mode that names no cell it faults. -/
def Obligations.StoreResults : Prop :=
  encodedAs .sta "STA" 46 anyMode ∧ encodedAs .stx "STX" 47 [.zeroPage, .indirectY, .absolute, .absoluteX] ∧
  encodedAs .sty "STY" 48 [.zeroPage, .zeroPageY, .absolute, .absoluteX] ∧
  (∀ p ∈ [(Instr.sta, State.a), (Instr.stx, State.x), (Instr.sty, State.y)], ∀ (o : Operand) (s : State),
    (s.mem.wf = true → ∀ a, s.ea o = some a → ∃ t, exec (p.1 o) s = .next t ∧ t.readByte a = p.2 s ∧
      sameMemoryBut a s t ∧ t.holds s.a s.x s.y s.sp16 s.flags (s.pc + 1) ∧ sameControl s t) ∧
    (s.ea o = none → exec (p.1 o) s = .next (s.faultedWith .noStoreTarget)))

/-- R206 to R210: TAX, TXA, TAY, TYA and TSX copy a register, set N and Z from the value and change nothing else; TSX
copies the low byte of SP16, so it reads 0xFF for a full and for an empty stack alike (R295). -/
def Obligations.TransferResults : Prop :=
  encodedAs .tax "TAX" 49 [.implied] ∧ encodedAs .txa "TXA" 52 [.implied] ∧ encodedAs .tay "TAY" 50 [.implied] ∧
  encodedAs .tya "TYA" 54 [.implied] ∧ encodedAs .tsx "TSX" 51 [.implied] ∧
  (∀ (o : Operand) (s : State),
    (∃ t, exec (.tax o) s = .next t ∧ t.holds s.a s.a s.y s.sp16 (withNZ s.flags s.a) (s.pc + 1) ∧
      sameMemory s t ∧ sameControl s t) ∧
    (∃ t, exec (.txa o) s = .next t ∧ t.holds s.x s.x s.y s.sp16 (withNZ s.flags s.x) (s.pc + 1) ∧
      sameMemory s t ∧ sameControl s t) ∧
    (∃ t, exec (.tay o) s = .next t ∧ t.holds s.a s.x s.a s.sp16 (withNZ s.flags s.a) (s.pc + 1) ∧
      sameMemory s t ∧ sameControl s t) ∧
    (∃ t, exec (.tya o) s = .next t ∧ t.holds s.y s.x s.y s.sp16 (withNZ s.flags s.y) (s.pc + 1) ∧
      sameMemory s t ∧ sameControl s t) ∧
    (∃ t, exec (.tsx o) s = .next t ∧ t.x.toNat = s.sp16.toNat % 256 ∧
      t.holds s.a t.x s.y s.sp16 (withNZ s.flags t.x) (s.pc + 1) ∧ sameMemory s t ∧ sameControl s t))

/-- R211: TXS puts X into page one, so that no TXS makes SP16 0x00FF; it writes no flag. -/
def Obligations.TxsResult : Prop :=
  encodedAs .txs "TXS" 53 [.implied] ∧
  (∀ (o : Operand) (s : State), ∃ t, exec (.txs o) s = .next t ∧ t.sp16.toNat = 0x0100 + s.x.toNat ∧
    t.holds s.a s.x s.y t.sp16 s.flags (s.pc + 1) ∧ sameMemory s t ∧ sameControl s t)

/-- R212: PHA stores A at SP16 and then decrements it; at SP16 = 0x00FF it faults. -/
def Obligations.PhaResult : Prop :=
  encodedAs .pha "PHA" 36 [.implied] ∧
  (∀ (o : Operand) (s : State),
    (s.mem.wf = true → s.sp16 ≠ 0x00FF#16 → ∃ t, exec (.pha o) s = .next t ∧ t.readByte s.sp16 = s.a ∧
      sameMemoryBut s.sp16 s t ∧ t.holds s.a s.x s.y (s.sp16 - 1) s.flags (s.pc + 1) ∧ sameControl s t) ∧
    (s.sp16 = 0x00FF#16 → exec (.pha o) s = .next (s.faultedWith .stackOverflow)))

/-- R213: PLA increments SP16 and then loads A from there, setting N and Z; the cell keeps its byte. At SP16 = 0x01FF
it faults. -/
def Obligations.PlaResult : Prop :=
  encodedAs .pla "PLA" 37 [.implied] ∧
  (∀ (o : Operand) (s : State),
    (s.sp16 ≠ 0x01FF#16 → ∃ t, exec (.pla o) s = .next t ∧
      t.holds (s.readByte (s.sp16 + 1)) s.x s.y (s.sp16 + 1) (withNZ s.flags (s.readByte (s.sp16 + 1))) (s.pc + 1) ∧
      sameMemory s t ∧ sameControl s t) ∧
    (s.sp16 = 0x01FF#16 → exec (.pla o) s = .next (s.faultedWith .stackUnderflow)))

/-- "`PHA` then `PLA` with no intervening stack mutation restores the original accumulator value" (R213): two steps of
the engine, from every state of a run whose stack is not full, with the post-instruction phase after each. -/
def Obligations.PushThenPullRestoresTheAccumulator : Prop :=
  ∀ (s : State) (o o' : Operand), Inv s → s.status = .running → s.sp16 ≠ 0x00FF#16 →
    s.program[s.pc]? = some (.pha o) → s.program[s.pc + 1]? = some (.pla o') →
    ∃ t u, step s = .next t ∧ step t = .next u ∧ u.a = s.a ∧ u.sp16 = s.sp16 ∧ u.pc = s.pc + 2

/-! ## Control transfer (41_control_transfer.md) -/

/-- R133: JMP goes to its label's index and changes nothing else; with a name that no label has it faults. -/
def Obligations.JmpResult : Prop :=
  encodedAs .jmp "JMP" 28 [.relative] ∧
  (∀ (o : Operand) (l : Text) (s : State),
    (∀ k, lookupLabel s.labels l = some k → ∃ t, exec (.jmp o l) s = .next t ∧
      t.holds s.a s.x s.y s.sp16 s.flags k ∧ sameMemory s t ∧ sameControl s t) ∧
    (lookupLabel s.labels l = none → exec (.jmp o l) s = .next (s.faultedWith .unresolvedLabel)))

/-- R131: with room on the call stack JSR pushes its own index and goes to its label's; with a full call stack it
faults; with a name that no label has it faults first. Memory and SP16 are untouched. -/
def Obligations.JsrResult : Prop :=
  encodedAs .jsr "JSR" 29 [.relative] ∧
  (∀ (o : Operand) (l : Text) (s : State),
    (∀ k, lookupLabel s.labels l = some k → s.hasRoom → ∃ t, exec (.jsr o l) s = .next t ∧
      t.callStack = s.pc :: s.callStack ∧
      t.holds s.a s.x s.y s.sp16 s.flags k ∧ sameMemory s t ∧ sameEngine s t) ∧
    (∀ k, lookupLabel s.labels l = some k →
      exec (.jsr o l) s = .next (if Config.callStackDepth = some s.callStack.length
        then s.faultedWith .callStackOverflow else { s with callStack := s.pc :: s.callStack, pc := k })) ∧
    (lookupLabel s.labels l = none → exec (.jsr o l) s = .next (s.faultedWith .unresolvedLabel)))

/-- R132: RTS pops the call stack and goes to the index after the one popped; with an empty call stack it faults. -/
def Obligations.RtsResult : Prop :=
  encodedAs .rts "RTS" 41 [.implied] ∧
  (∀ (o : Operand) (s : State),
    (∀ j cs, s.callStack = j :: cs → ∃ t, exec (.rts o) s = .next t ∧ t.callStack = cs ∧
      t.holds s.a s.x s.y s.sp16 s.flags (j + 1) ∧ sameMemory s t ∧ sameEngine s t) ∧
    (s.callStack = [] → exec (.rts o) s = .next (s.faultedWith .callStackEmpty)))

/-- "`JSR Foo` followed eventually by `RTS` resumes execution at the instruction immediately after the `JSR`" (R132):
whatever ran in between, if it left the call stack as the JSR did. -/
def Obligations.ReturnResumesAfterTheCall : Prop :=
  ∀ (o o' : Operand) (l : Text) (s t u : State) (k : Nat), lookupLabel s.labels l = some k → s.hasRoom →
    exec (.jsr o l) s = .next t → u.callStack = t.callStack →
    ∃ w, exec (.rts o') u = .next w ∧ w.pc = s.pc + 1 ∧ w.callStack = s.callStack

/-- R143 and R144: each conditional branch goes to its label's index if its flag has the tabled value, else on to the
next; it writes no flag and nothing else. An unresolved label faults whether or not the branch would be taken. -/
def Obligations.BranchResults : Prop :=
  encodedAs .bcc "BCC" 3 [.relative] ∧ encodedAs .bcs "BCS" 4 [.relative] ∧ encodedAs .beq "BEQ" 5 [.relative] ∧
  encodedAs .bne "BNE" 8 [.relative] ∧ encodedAs .bmi "BMI" 7 [.relative] ∧ encodedAs .bpl "BPL" 9 [.relative] ∧
  encodedAs .bvc "BVC" 11 [.relative] ∧ encodedAs .bvs "BVS" 12 [.relative] ∧
  (∀ p ∈ branchTable, ∀ (o : Operand) (l : Text) (s : State),
    (∀ k, lookupLabel s.labels l = some k → ∃ t, exec (p.1 o l) s = .next t ∧
      t.holds s.a s.x s.y s.sp16 s.flags (if p.2.1 s.flags = p.2.2 then k else s.pc + 1) ∧
      sameMemory s t ∧ sameControl s t) ∧
    (lookupLabel s.labels l = none → exec (p.1 o l) s = .next (s.faultedWith .unresolvedLabel)))

/-- R121: a label name stands for the index the label table gives, and a control transfer to a name that is not in the
table faults, all ten alike, before anything else is tested. -/
def Obligations.UnresolvedLabelsFault : Prop :=
  ∀ (l : Text) (s : State),
    (∀ k, lookupLabel s.labels l = some k → s.target l = .ok k) ∧
    (lookupLabel s.labels l = none → s.target l = .error .unresolvedLabel ∧
      ∀ transfer ∈ transferTable, ∀ o : Operand, exec (transfer o l) s = .next (s.faultedWith .unresolvedLabel))

/-- R134: RTI always faults, and changes nothing but the status. -/
def Obligations.RtiFaults : Prop :=
  encodedAs .rti "RTI" 40 [.implied] ∧
  (∀ (o : Operand) (s : State), exec (.rti o) s = .next (s.faultedWith .rtiUnsupported))

/-! ## Flag operations and system instructions (45_flags_system.md) -/

/-- R230 to R236: "set/clear exactly one flag, no other side effect". -/
def Obligations.FlagOperations : Prop :=
  encodedAs .clc "CLC" 13 [.implied] ∧ encodedAs .sec "SEC" 43 [.implied] ∧ encodedAs .cli "CLI" 15 [.implied] ∧
  encodedAs .sei "SEI" 45 [.implied] ∧ encodedAs .clv "CLV" 16 [.implied] ∧ encodedAs .cld "CLD" 14 [.implied] ∧
  encodedAs .sed "SED" 44 [.implied] ∧
  (∀ p ∈ [(Instr.clc, fun f : Flags => { f with c := false }), (Instr.sec, fun f => { f with c := true }),
      (Instr.cli, fun f => { f with i := false }), (Instr.sei, fun f => { f with i := true }),
      (Instr.clv, fun f => { f with v := false }), (Instr.cld, fun f => { f with d := false }),
      (Instr.sed, fun f => { f with d := true })], ∀ (o : Operand) (s : State),
    ∃ t, exec (p.1 o) s = .next t ∧ t.holds s.a s.x s.y s.sp16 (p.2 s.flags) (s.pc + 1) ∧
      sameMemory s t ∧ sameControl s t)

/-- R237, R239 and R240: NOP and LABEL only advance the index; DRW besides asserts the frame indication. A step that
runs one of the three takes it to the next index, with the post-instruction phase after it (the draw is the free value
of log entry 2). -/
def Obligations.NopLabelAndDrw : Prop :=
  encodedAs .nop "NOP" 34 [.implied] ∧ encodedAs .drw "DRW" 23 [.implied] ∧ Opcode.label.ordinal = 55 ∧
  (∀ m, Opcode.label.legal m = true) ∧
  (∀ i : Instr, i.opcode = .nop ∨ i.opcode = .label → ∀ s : State, ∃ t, exec i s = .next t ∧
    t.holds s.a s.x s.y s.sp16 s.flags (s.pc + 1) ∧ sameMemory s t ∧ sameControl s t) ∧
  (∀ (o : Operand) (s : State), ∃ t, exec (.drw o) s = .next t ∧ t.frame = true ∧
    t.holds s.a s.x s.y s.sp16 s.flags (s.pc + 1) ∧ sameMemory s t ∧ t.callStack = s.callStack ∧
    t.program = s.program ∧ t.labels = s.labels ∧ t.status = s.status ∧ t.drawIndex = s.drawIndex) ∧
  (∀ (s : State) (i : Instr), s.status = .running → s.program[s.pc]? = some i →
    i.opcode = .nop ∨ i.opcode = .label ∨ i.opcode = .drw →
    ∃ t, step s = .next t ∧ t.pc = s.pc + 1 ∧ phaseRan s t ∧ (i.opcode = .drw → t.frame = true))

/-- R238: BRK halts the engine, pc keeping its index, and changes nothing else; the post-instruction phase runs once
more after it. -/
def Obligations.BrkHalts : Prop :=
  encodedAs .brk "BRK" 10 [.implied] ∧
  (∀ (o : Operand) (s : State), ∃ t, exec (.brk o) s = .next t ∧ t.status = .halted .brk ∧
    t.holds s.a s.x s.y s.sp16 s.flags s.pc ∧ sameMemory s t ∧ t.callStack = s.callStack ∧ t.program = s.program ∧
    t.labels = s.labels ∧ t.frame = s.frame ∧ t.drawIndex = s.drawIndex) ∧
  (∀ (s : State) (o : Operand), s.status = .running → s.program[s.pc]? = some (.brk o) →
    ∃ t, step s = .next t ∧ t.status = .halted .brk ∧ t.pc = s.pc ∧ phaseRan s t)

/-! ## What the host reads (00_scope.md §6) -/

/-- The screen window is the 16384 cells from 0x0100 to 0x40FF, in order (R14, R49); the stack region is its first page
(R42). -/
def Obligations.ScreenWindowIsMemory : Prop :=
  ∀ s : State, s.screen.length = 16384 ∧
    ∀ k < 16384, ∃ b, s.screen[k]? = some b ∧ b = s.readByte (BitVec.ofNat 16 (0x0100 + k))

/-- R253: after a step that faults, the report carries the code, the index, and the opcode and label name of the
record there; for an unresolved label that name is not in the table. -/
def Obligations.FaultReportNamesTheRecord : Prop :=
  ∀ (s t : State) (i : Instr) (code : FaultCode) (k : Nat), s.program[s.pc]? = some i → step s = .next t →
    t.status = .faulted code k →
    t.faultReport = some ⟨code.code, s.pc, some i.opcode, i.labelName⟩ ∧
    (code = .unresolvedLabel → lookupLabel t.labels i.labelName = none) ∧
    t.sp16 = s.sp16 ∧ t.callStack = s.callStack
end

