-- ==== Sys2Proof/Laws/State.lean ====
section
/-! SUPPORT. One lemma per field per update of State, and the readings of the composite updates. -/

namespace Sys2Proof.Machine

section
variable (s : State) (v : Byte)
@[simp] theorem State.setA_a : (s.setA v).a = v := rfl
@[simp] theorem State.setA_x : (s.setA v).x = s.x := rfl
@[simp] theorem State.setA_y : (s.setA v).y = s.y := rfl
@[simp] theorem State.setA_sp16 : (s.setA v).sp16 = s.sp16 := rfl
@[simp] theorem State.setA_flags : (s.setA v).flags = s.flags := rfl
@[simp] theorem State.setA_pc : (s.setA v).pc = s.pc := rfl
@[simp] theorem State.setA_callStack : (s.setA v).callStack = s.callStack := rfl
@[simp] theorem State.setA_mem : (s.setA v).mem = s.mem := rfl
@[simp] theorem State.setA_program : (s.setA v).program = s.program := rfl
@[simp] theorem State.setA_labels : (s.setA v).labels = s.labels := rfl
@[simp] theorem State.setA_status : (s.setA v).status = s.status := rfl
@[simp] theorem State.setA_frame : (s.setA v).frame = s.frame := rfl
@[simp] theorem State.setA_drawIndex : (s.setA v).drawIndex = s.drawIndex := rfl
@[simp] theorem State.setA_readByte (b : Half) : (s.setA v).readByte b = s.readByte b := rfl
end

section
variable (s : State) (v : Byte)
@[simp] theorem State.setX_a : (s.setX v).a = s.a := rfl
@[simp] theorem State.setX_x : (s.setX v).x = v := rfl
@[simp] theorem State.setX_y : (s.setX v).y = s.y := rfl
@[simp] theorem State.setX_sp16 : (s.setX v).sp16 = s.sp16 := rfl
@[simp] theorem State.setX_flags : (s.setX v).flags = s.flags := rfl
@[simp] theorem State.setX_pc : (s.setX v).pc = s.pc := rfl
@[simp] theorem State.setX_callStack : (s.setX v).callStack = s.callStack := rfl
@[simp] theorem State.setX_mem : (s.setX v).mem = s.mem := rfl
@[simp] theorem State.setX_program : (s.setX v).program = s.program := rfl
@[simp] theorem State.setX_labels : (s.setX v).labels = s.labels := rfl
@[simp] theorem State.setX_status : (s.setX v).status = s.status := rfl
@[simp] theorem State.setX_frame : (s.setX v).frame = s.frame := rfl
@[simp] theorem State.setX_drawIndex : (s.setX v).drawIndex = s.drawIndex := rfl
@[simp] theorem State.setX_readByte (b : Half) : (s.setX v).readByte b = s.readByte b := rfl
end

section
variable (s : State) (v : Byte)
@[simp] theorem State.setY_a : (s.setY v).a = s.a := rfl
@[simp] theorem State.setY_x : (s.setY v).x = s.x := rfl
@[simp] theorem State.setY_y : (s.setY v).y = v := rfl
@[simp] theorem State.setY_sp16 : (s.setY v).sp16 = s.sp16 := rfl
@[simp] theorem State.setY_flags : (s.setY v).flags = s.flags := rfl
@[simp] theorem State.setY_pc : (s.setY v).pc = s.pc := rfl
@[simp] theorem State.setY_callStack : (s.setY v).callStack = s.callStack := rfl
@[simp] theorem State.setY_mem : (s.setY v).mem = s.mem := rfl
@[simp] theorem State.setY_program : (s.setY v).program = s.program := rfl
@[simp] theorem State.setY_labels : (s.setY v).labels = s.labels := rfl
@[simp] theorem State.setY_status : (s.setY v).status = s.status := rfl
@[simp] theorem State.setY_frame : (s.setY v).frame = s.frame := rfl
@[simp] theorem State.setY_drawIndex : (s.setY v).drawIndex = s.drawIndex := rfl
@[simp] theorem State.setY_readByte (b : Half) : (s.setY v).readByte b = s.readByte b := rfl
end

section
variable (s : State) (v : Half)
@[simp] theorem State.setSp16_a : (s.setSp16 v).a = s.a := rfl
@[simp] theorem State.setSp16_x : (s.setSp16 v).x = s.x := rfl
@[simp] theorem State.setSp16_y : (s.setSp16 v).y = s.y := rfl
@[simp] theorem State.setSp16_sp16 : (s.setSp16 v).sp16 = v := rfl
@[simp] theorem State.setSp16_flags : (s.setSp16 v).flags = s.flags := rfl
@[simp] theorem State.setSp16_pc : (s.setSp16 v).pc = s.pc := rfl
@[simp] theorem State.setSp16_callStack : (s.setSp16 v).callStack = s.callStack := rfl
@[simp] theorem State.setSp16_mem : (s.setSp16 v).mem = s.mem := rfl
@[simp] theorem State.setSp16_program : (s.setSp16 v).program = s.program := rfl
@[simp] theorem State.setSp16_labels : (s.setSp16 v).labels = s.labels := rfl
@[simp] theorem State.setSp16_status : (s.setSp16 v).status = s.status := rfl
@[simp] theorem State.setSp16_frame : (s.setSp16 v).frame = s.frame := rfl
@[simp] theorem State.setSp16_drawIndex : (s.setSp16 v).drawIndex = s.drawIndex := rfl
@[simp] theorem State.setSp16_readByte (b : Half) : (s.setSp16 v).readByte b = s.readByte b := rfl
end

section
variable (s : State) (v : Flags)
@[simp] theorem State.setFlags_a : (s.setFlags v).a = s.a := rfl
@[simp] theorem State.setFlags_x : (s.setFlags v).x = s.x := rfl
@[simp] theorem State.setFlags_y : (s.setFlags v).y = s.y := rfl
@[simp] theorem State.setFlags_sp16 : (s.setFlags v).sp16 = s.sp16 := rfl
@[simp] theorem State.setFlags_flags : (s.setFlags v).flags = v := rfl
@[simp] theorem State.setFlags_pc : (s.setFlags v).pc = s.pc := rfl
@[simp] theorem State.setFlags_callStack : (s.setFlags v).callStack = s.callStack := rfl
@[simp] theorem State.setFlags_mem : (s.setFlags v).mem = s.mem := rfl
@[simp] theorem State.setFlags_program : (s.setFlags v).program = s.program := rfl
@[simp] theorem State.setFlags_labels : (s.setFlags v).labels = s.labels := rfl
@[simp] theorem State.setFlags_status : (s.setFlags v).status = s.status := rfl
@[simp] theorem State.setFlags_frame : (s.setFlags v).frame = s.frame := rfl
@[simp] theorem State.setFlags_drawIndex : (s.setFlags v).drawIndex = s.drawIndex := rfl
@[simp] theorem State.setFlags_readByte (b : Half) : (s.setFlags v).readByte b = s.readByte b := rfl
end

section
variable (s : State) (v : Nat)
@[simp] theorem State.setPc_a : (s.setPc v).a = s.a := rfl
@[simp] theorem State.setPc_x : (s.setPc v).x = s.x := rfl
@[simp] theorem State.setPc_y : (s.setPc v).y = s.y := rfl
@[simp] theorem State.setPc_sp16 : (s.setPc v).sp16 = s.sp16 := rfl
@[simp] theorem State.setPc_flags : (s.setPc v).flags = s.flags := rfl
@[simp] theorem State.setPc_pc : (s.setPc v).pc = v := rfl
@[simp] theorem State.setPc_callStack : (s.setPc v).callStack = s.callStack := rfl
@[simp] theorem State.setPc_mem : (s.setPc v).mem = s.mem := rfl
@[simp] theorem State.setPc_program : (s.setPc v).program = s.program := rfl
@[simp] theorem State.setPc_labels : (s.setPc v).labels = s.labels := rfl
@[simp] theorem State.setPc_status : (s.setPc v).status = s.status := rfl
@[simp] theorem State.setPc_frame : (s.setPc v).frame = s.frame := rfl
@[simp] theorem State.setPc_drawIndex : (s.setPc v).drawIndex = s.drawIndex := rfl
@[simp] theorem State.setPc_readByte (b : Half) : (s.setPc v).readByte b = s.readByte b := rfl
end

section
variable (s : State) (v : List Nat)
@[simp] theorem State.setCallStack_a : (s.setCallStack v).a = s.a := rfl
@[simp] theorem State.setCallStack_x : (s.setCallStack v).x = s.x := rfl
@[simp] theorem State.setCallStack_y : (s.setCallStack v).y = s.y := rfl
@[simp] theorem State.setCallStack_sp16 : (s.setCallStack v).sp16 = s.sp16 := rfl
@[simp] theorem State.setCallStack_flags : (s.setCallStack v).flags = s.flags := rfl
@[simp] theorem State.setCallStack_pc : (s.setCallStack v).pc = s.pc := rfl
@[simp] theorem State.setCallStack_callStack : (s.setCallStack v).callStack = v := rfl
@[simp] theorem State.setCallStack_mem : (s.setCallStack v).mem = s.mem := rfl
@[simp] theorem State.setCallStack_program : (s.setCallStack v).program = s.program := rfl
@[simp] theorem State.setCallStack_labels : (s.setCallStack v).labels = s.labels := rfl
@[simp] theorem State.setCallStack_status : (s.setCallStack v).status = s.status := rfl
@[simp] theorem State.setCallStack_frame : (s.setCallStack v).frame = s.frame := rfl
@[simp] theorem State.setCallStack_drawIndex : (s.setCallStack v).drawIndex = s.drawIndex := rfl
@[simp] theorem State.setCallStack_readByte (b : Half) : (s.setCallStack v).readByte b = s.readByte b := rfl
end

section
variable (s : State) (v : Status)
@[simp] theorem State.setStatus_a : (s.setStatus v).a = s.a := rfl
@[simp] theorem State.setStatus_x : (s.setStatus v).x = s.x := rfl
@[simp] theorem State.setStatus_y : (s.setStatus v).y = s.y := rfl
@[simp] theorem State.setStatus_sp16 : (s.setStatus v).sp16 = s.sp16 := rfl
@[simp] theorem State.setStatus_flags : (s.setStatus v).flags = s.flags := rfl
@[simp] theorem State.setStatus_pc : (s.setStatus v).pc = s.pc := rfl
@[simp] theorem State.setStatus_callStack : (s.setStatus v).callStack = s.callStack := rfl
@[simp] theorem State.setStatus_mem : (s.setStatus v).mem = s.mem := rfl
@[simp] theorem State.setStatus_program : (s.setStatus v).program = s.program := rfl
@[simp] theorem State.setStatus_labels : (s.setStatus v).labels = s.labels := rfl
@[simp] theorem State.setStatus_status : (s.setStatus v).status = v := rfl
@[simp] theorem State.setStatus_frame : (s.setStatus v).frame = s.frame := rfl
@[simp] theorem State.setStatus_drawIndex : (s.setStatus v).drawIndex = s.drawIndex := rfl
@[simp] theorem State.setStatus_readByte (b : Half) : (s.setStatus v).readByte b = s.readByte b := rfl
end

section
variable (s : State) (v : Bool)
@[simp] theorem State.setFrame_a : (s.setFrame v).a = s.a := rfl
@[simp] theorem State.setFrame_x : (s.setFrame v).x = s.x := rfl
@[simp] theorem State.setFrame_y : (s.setFrame v).y = s.y := rfl
@[simp] theorem State.setFrame_sp16 : (s.setFrame v).sp16 = s.sp16 := rfl
@[simp] theorem State.setFrame_flags : (s.setFrame v).flags = s.flags := rfl
@[simp] theorem State.setFrame_pc : (s.setFrame v).pc = s.pc := rfl
@[simp] theorem State.setFrame_callStack : (s.setFrame v).callStack = s.callStack := rfl
@[simp] theorem State.setFrame_mem : (s.setFrame v).mem = s.mem := rfl
@[simp] theorem State.setFrame_program : (s.setFrame v).program = s.program := rfl
@[simp] theorem State.setFrame_labels : (s.setFrame v).labels = s.labels := rfl
@[simp] theorem State.setFrame_status : (s.setFrame v).status = s.status := rfl
@[simp] theorem State.setFrame_frame : (s.setFrame v).frame = v := rfl
@[simp] theorem State.setFrame_drawIndex : (s.setFrame v).drawIndex = s.drawIndex := rfl
@[simp] theorem State.setFrame_readByte (b : Half) : (s.setFrame v).readByte b = s.readByte b := rfl
end

section
variable (s : State) (v : Nat)
@[simp] theorem State.setDrawIndex_a : (s.setDrawIndex v).a = s.a := rfl
@[simp] theorem State.setDrawIndex_x : (s.setDrawIndex v).x = s.x := rfl
@[simp] theorem State.setDrawIndex_y : (s.setDrawIndex v).y = s.y := rfl
@[simp] theorem State.setDrawIndex_sp16 : (s.setDrawIndex v).sp16 = s.sp16 := rfl
@[simp] theorem State.setDrawIndex_flags : (s.setDrawIndex v).flags = s.flags := rfl
@[simp] theorem State.setDrawIndex_pc : (s.setDrawIndex v).pc = s.pc := rfl
@[simp] theorem State.setDrawIndex_callStack : (s.setDrawIndex v).callStack = s.callStack := rfl
@[simp] theorem State.setDrawIndex_mem : (s.setDrawIndex v).mem = s.mem := rfl
@[simp] theorem State.setDrawIndex_program : (s.setDrawIndex v).program = s.program := rfl
@[simp] theorem State.setDrawIndex_labels : (s.setDrawIndex v).labels = s.labels := rfl
@[simp] theorem State.setDrawIndex_status : (s.setDrawIndex v).status = s.status := rfl
@[simp] theorem State.setDrawIndex_frame : (s.setDrawIndex v).frame = s.frame := rfl
@[simp] theorem State.setDrawIndex_drawIndex : (s.setDrawIndex v).drawIndex = v := rfl
@[simp] theorem State.setDrawIndex_readByte (b : Half) : (s.setDrawIndex v).readByte b = s.readByte b := rfl
end

section
variable (s : State) (a : Half) (v : Byte)
@[simp] theorem State.writeByte_a : (s.writeByte a v).a = s.a := rfl
@[simp] theorem State.writeByte_x : (s.writeByte a v).x = s.x := rfl
@[simp] theorem State.writeByte_y : (s.writeByte a v).y = s.y := rfl
@[simp] theorem State.writeByte_sp16 : (s.writeByte a v).sp16 = s.sp16 := rfl
@[simp] theorem State.writeByte_flags : (s.writeByte a v).flags = s.flags := rfl
@[simp] theorem State.writeByte_pc : (s.writeByte a v).pc = s.pc := rfl
@[simp] theorem State.writeByte_callStack : (s.writeByte a v).callStack = s.callStack := rfl
@[simp] theorem State.writeByte_mem : (s.writeByte a v).mem = s.mem.write a v := rfl
@[simp] theorem State.writeByte_program : (s.writeByte a v).program = s.program := rfl
@[simp] theorem State.writeByte_labels : (s.writeByte a v).labels = s.labels := rfl
@[simp] theorem State.writeByte_status : (s.writeByte a v).status = s.status := rfl
@[simp] theorem State.writeByte_frame : (s.writeByte a v).frame = s.frame := rfl
@[simp] theorem State.writeByte_drawIndex : (s.writeByte a v).drawIndex = s.drawIndex := rfl
end

section
variable (s : State)
@[simp] theorem State.advance_eq : s.advance = s.setPc (s.pc + 1) := rfl
@[simp] theorem State.halt_eq (r : HaltReason) : s.halt r = s.setStatus (.halted r) := rfl
@[simp] theorem State.raiseFault_eq (c : FaultCode) : s.raiseFault c = s.setStatus (.faulted c s.pc) := rfl
@[simp] theorem State.beginStep_eq : s.beginStep = s.setFrame false := rfl
@[simp] theorem State.fetch_eq : s.fetch = s.program[s.pc]? := rfl
end

section
variable (s : State)
@[simp] theorem State.postInstruction_a : s.postInstruction.a = s.a := rfl
@[simp] theorem State.postInstruction_x : s.postInstruction.x = s.x := rfl
@[simp] theorem State.postInstruction_y : s.postInstruction.y = s.y := rfl
@[simp] theorem State.postInstruction_sp16 : s.postInstruction.sp16 = s.sp16 := rfl
@[simp] theorem State.postInstruction_flags : s.postInstruction.flags = s.flags := rfl
@[simp] theorem State.postInstruction_pc : s.postInstruction.pc = s.pc := rfl
@[simp] theorem State.postInstruction_callStack : s.postInstruction.callStack = s.callStack := rfl
@[simp] theorem State.postInstruction_program : s.postInstruction.program = s.program := rfl
@[simp] theorem State.postInstruction_labels : s.postInstruction.labels = s.labels := rfl
@[simp] theorem State.postInstruction_status : s.postInstruction.status = s.status := rfl
@[simp] theorem State.postInstruction_frame : s.postInstruction.frame = s.frame := rfl
@[simp] theorem State.postInstruction_drawIndex : s.postInstruction.drawIndex = s.drawIndex + 1 := rfl
end

@[simp] theorem State.resetWith_program (p : List Instr) (lt : LabelTable) : (State.resetWith p lt).program = p := rfl
@[simp] theorem State.resetWith_labels (p : List Instr) (lt : LabelTable) : (State.resetWith p lt).labels = lt := rfl

end Sys2Proof.Machine
end

