-- ==== Sys2Proof/Laws/Memory.lean ====
section
/-! SUPPORT. The laws of memory: reads after writes, and the canonical form kept by every write. -/

namespace Sys2Proof.Machine

/-! ## The list of cells -/

theorem readCells_consCell_self (a : Nat) (v : Byte) (m : List Host.Cell) (h : readCells m a = unlisted a) :
    readCells (consCell a v m) a = v := by
  unfold consCell
  split
  · rw [h]; exact (by assumption : v = unlisted a).symm
  · simp [readCells]

theorem readCells_consCell_ne (a b : Nat) (v : Byte) (m : List Host.Cell) (h : a ≠ b) :
    readCells (consCell a v m) b = readCells m b := by
  unfold consCell
  split
  · rfl
  · simp [readCells, h]

/-- A write leaves every other address alone, whatever the list. -/
theorem readCells_writeCells_ne (m : List Host.Cell) (a b : Nat) (v : Byte) (h : a ≠ b) :
    readCells (writeCells m a v) b = readCells m b := by
  induction m with
  | nil => exact readCells_consCell_ne a b v [] h
  | cons c m ih =>
    obtain ⟨k, w⟩ := c
    unfold writeCells
    split
    · simp [readCells, ih]
    · split
      · next hk => subst hk; rw [readCells_consCell_ne k b v m h]; simp [readCells, h]
      · exact readCells_consCell_ne a b v _ h

theorem risingFrom_mono {m : List Host.Cell} {i j : Nat} (h : risingFrom j m = true) (hij : i ≤ j) :
    risingFrom i m = true := by
  cases m with
  | nil => rfl
  | cons c m =>
    simp only [risingFrom, Bool.and_eq_true, decide_eq_true_eq] at h ⊢
    exact ⟨le_trans hij h.1, h.2⟩

/-- Below a rising list nothing is listed. -/
theorem readCells_below {m : List Host.Cell} {low a : Nat} (h : risingFrom low m = true) (ha : a < low) :
    readCells m a = unlisted a := by
  induction m generalizing low with
  | nil => rfl
  | cons c m ih =>
    obtain ⟨k, w⟩ := c
    simp only [risingFrom, Bool.and_eq_true, decide_eq_true_eq] at h
    simp only [readCells]
    rw [if_neg (by omega)]
    exact ih h.2 (by omega)

/-- In a rising list a written byte is read back. -/
theorem readCells_writeCells_self {m : List Host.Cell} {low : Nat} (a : Nat) (v : Byte)
    (h : risingFrom low m = true) : readCells (writeCells m a v) a = v := by
  induction m generalizing low with
  | nil => exact readCells_consCell_self a v [] rfl
  | cons c m ih =>
    obtain ⟨k, w⟩ := c
    simp only [risingFrom, Bool.and_eq_true, decide_eq_true_eq] at h
    unfold writeCells
    split
    · next hk => simp only [readCells]; rw [if_neg (by omega)]; exact ih h.2
    · split
      · next hk => subst hk; exact readCells_consCell_self k v m (readCells_below h.2 (by omega))
      · refine readCells_consCell_self a v _ ?_
        simp only [readCells]
        rw [if_neg (by omega)]
        exact readCells_below h.2 (by omega)

theorem risingFrom_consCell {m : List Host.Cell} {low a : Nat} (v : Byte) (ha : low ≤ a)
    (h : risingFrom (a + 1) m = true) : risingFrom low (consCell a v m) = true := by
  unfold consCell
  split
  · exact risingFrom_mono h (by omega)
  · simp [risingFrom, ha, h]

theorem risingFrom_writeCells {m : List Host.Cell} {low a : Nat} (v : Byte) (ha : low ≤ a)
    (h : risingFrom low m = true) : risingFrom low (writeCells m a v) = true := by
  induction m generalizing low with
  | nil => exact risingFrom_consCell v ha rfl
  | cons c m ih =>
    obtain ⟨k, w⟩ := c
    simp only [risingFrom, Bool.and_eq_true, decide_eq_true_eq] at h
    unfold writeCells
    split
    · next hk => simp [risingFrom, h.1, ih (Nat.succ_le_of_lt hk) h.2]
    · split
      · next hk => subst hk; exact risingFrom_consCell v h.1 h.2
      · refine risingFrom_consCell v ha ?_
        simp only [risingFrom, Bool.and_eq_true, decide_eq_true_eq]
        exact ⟨by omega, h.2⟩

theorem all_listable_consCell {m : List Host.Cell} {a : Nat} {v : Byte}
    (ha : v ≠ unlisted a → listable (a, v) = true) (h : m.all listable = true) :
    (consCell a v m).all listable = true := by
  unfold consCell
  split
  · exact h
  · next hv => simp [h, ha hv]

theorem all_listable_writeCells {m : List Host.Cell} {a : Nat} {v : Byte}
    (ha : v ≠ unlisted a → listable (a, v) = true) (h : m.all listable = true) :
    (writeCells m a v).all listable = true := by
  induction m with
  | nil => exact all_listable_consCell ha rfl
  | cons c m ih =>
    obtain ⟨k, w⟩ := c
    simp only [List.all_cons, Bool.and_eq_true] at h
    unfold writeCells
    split
    · simp [h.1, ih h.2]
    · split
      · exact all_listable_consCell ha h.2
      · exact all_listable_consCell ha (by simp [h.1, h.2])

/-! ## Memory -/

/-- A write leaves every other address alone. -/
theorem Memory.read_write_ne (m : Memory) {a b : Half} (v : Byte) (h : b ≠ a) : (m.write a v).read b = m.read b := by
  have hn : a.toNat ≠ b.toNat := fun e => h (BitVec.eq_of_toNat_eq e).symm
  unfold Memory.write
  split
  · next ha => subst ha; simp [Memory.read, h]
  · split
    · next ha => subst ha; simp [Memory.read, h]
    · simp [Memory.read, readCells_writeCells_ne _ _ _ _ hn]

/-- A byte written to a canonical memory is read back. -/
theorem Memory.read_write_self {m : Memory} (hm : m.wf = true) (a : Half) (v : Byte) : (m.write a v).read a = v := by
  simp only [Memory.wf, Bool.and_eq_true] at hm
  unfold Memory.write Memory.read
  split
  · rfl
  · split
    · rfl
    · exact readCells_writeCells_self a.toNat v hm.1

/-- The entropy cell is read back whatever the memory. -/
theorem Memory.read_write_entropy (m : Memory) (v : Byte) :
    (m.write Config.entropyAddr v).read Config.entropyAddr = v := by simp [Memory.write, Memory.read]

/-- The key cell is read back whatever the memory. -/
theorem Memory.read_write_key (m : Memory) (v : Byte) : (m.write Config.keyAddr v).read Config.keyAddr = v := by
  have h : Config.keyAddr ≠ Config.entropyAddr := by decide
  simp [Memory.write, Memory.read, h]

/-- Every write keeps the canonical form. -/
theorem Memory.write_wf {m : Memory} (hm : m.wf = true) (a : Half) (v : Byte) : (m.write a v).wf = true := by
  unfold Memory.write
  split
  · exact hm
  · split
    · exact hm
    · next he hk =>
      have he' : a.toNat ≠ Config.entropyAddr.toNat := fun e => he (BitVec.eq_of_toNat_eq e)
      have hk' : a.toNat ≠ Config.keyAddr.toNat := fun e => hk (BitVec.eq_of_toNat_eq e)
      simp only [Memory.wf, Bool.and_eq_true] at hm ⊢
      refine ⟨risingFrom_writeCells v (Nat.zero_le _) hm.1, all_listable_writeCells (fun hv => ?_) hm.2⟩
      have := a.isLt
      simp [listable, hv, he', hk']
      omega

/-- The memory at reset is canonical. -/
theorem Memory.wf_reset (p : List Instr) (lt : LabelTable) : (State.resetWith p lt).mem.wf = true := by
  simp [State.resetWith, Memory.wf, risingFrom]

/-! ## The state's bytes -/

@[simp] theorem State.readByte_writeByte_ne (s : State) {a b : Half} (v : Byte) (h : b ≠ a) :
    (s.writeByte a v).readByte b = s.readByte b := Memory.read_write_ne s.mem v h

theorem State.readByte_writeByte_self {s : State} (hm : s.mem.wf = true) (a : Half) (v : Byte) :
    (s.writeByte a v).readByte a = v := Memory.read_write_self hm a v

/-- The post-instruction phase: the entropy cell holds the draw. -/
theorem State.readByte_postInstruction_entropy (s : State) :
    s.postInstruction.readByte Config.entropyAddr = Config.entropy s.drawIndex := by
  have h : Config.entropyAddr ≠ Config.keyAddr := by decide
  exact (Memory.read_write_ne _ _ h).trans (Memory.read_write_entropy _ _)

/-- The post-instruction phase: the key cell holds the code of a key event, else what it held. -/
theorem State.readByte_postInstruction_key (s : State) :
    s.postInstruction.readByte Config.keyAddr = (Config.keyEvent s.drawIndex).getD (s.readByte Config.keyAddr) := by
  have h : Config.keyAddr ≠ Config.entropyAddr := by decide
  refine (Memory.read_write_key _ _).trans ?_
  simp [h]

/-- The post-instruction phase leaves every other byte alone. -/
theorem State.readByte_postInstruction_ne (s : State) {b : Half} (he : b ≠ Config.entropyAddr)
    (hk : b ≠ Config.keyAddr) : s.postInstruction.readByte b = s.readByte b :=
  (Memory.read_write_ne _ _ hk).trans (Memory.read_write_ne _ _ he)

theorem State.postInstruction_wf {s : State} (hm : s.mem.wf = true) : s.postInstruction.mem.wf = true :=
  Memory.write_wf (Memory.write_wf hm _ _) _ _

end Sys2Proof.Machine
end

