-- ==== Sys2Proof/Laws/Ops.lean ====
section
/-! SUPPORT. One lemma for each shared operation: everything it can do. -/

namespace Sys2Proof.Machine

/-! ## Operands -/

/-- An operand of the eight memory modes has its address. -/
theorem ea_inMemory (s : State) {o : Operand} (h : inMemory o = true) : s.ea o = some (s.addressOf o) := by
  cases o <;> simp_all [inMemory, State.addressOf, State.ea]

/-- The other three modes have no effective address. -/
theorem ea_notInMemory (s : State) {o : Operand} (h : inMemory o = false) : s.ea o = none := by
  cases o <;> simp_all [inMemory, State.ea]

theorem readOperand_readable (s : State) {o : Operand} (h : readable o = true) :
    s.readOperand o = .ok (s.operandByte o) := by
  cases o <;> simp_all [readable, State.readOperand, State.operandByte, State.addressOf, State.ea]

theorem readOperand_unreadable (s : State) {o : Operand} (h : readable o = false) :
    s.readOperand o = .error .operandMissing := by
  cases o <;> simp_all [readable, State.readOperand, State.ea]

theorem storeAddr_inMemory (s : State) {o : Operand} (h : inMemory o = true) :
    s.storeAddr o = .ok (s.addressOf o) := by
  simp [State.storeAddr, ea_inMemory s h]

theorem storeAddr_notInMemory (s : State) {o : Operand} (h : inMemory o = false) :
    s.storeAddr o = .error .noStoreTarget := by
  simp [State.storeAddr, ea_notInMemory s h]

theorem rmwTarget_inMemory (s : State) (acc : Bool) {o : Operand} (h : inMemory o = true) :
    s.rmwTarget acc o = .ok (.cell (s.addressOf o)) := by
  have ho : o ≠ .implied := by rintro rfl; exact absurd h (by decide)
  simp [State.rmwTarget, ho, ea_inMemory s h]

theorem rmwTarget_accumulator (s : State) : s.rmwTarget true .implied = .ok .acc := by
  simp [State.rmwTarget]

theorem rmwTarget_none (s : State) {acc : Bool} {o : Operand} (h : inMemory o = false)
    (ho : acc = false ∨ o ≠ .implied) : s.rmwTarget acc o = .error .noStoreTarget := by
  have : ¬ (acc = true ∧ o = .implied) := by rintro ⟨rfl, rfl⟩; simp at ho
  simp [State.rmwTarget, this, ea_notInMemory s h]

/-! ## Faults -/

@[simp] theorem orFault_error {α : Type} (s : State) (c : FaultCode) (k : α → Result) :
    orFault s (.error c) k = .next (s.raiseFault c) := rfl

@[simp] theorem orFault_ok {α : Type} (s : State) (v : α) (k : α → Result) : orFault s (.ok v) k = k v := rfl

/-! ## The label table and the call stack -/

theorem target_found {s : State} {l : Text} {i : Nat} (h : lookupLabel s.labels l = some i) : s.target l = .ok i := by
  simp [State.target, h]

theorem target_unresolved {s : State} {l : Text} (h : lookupLabel s.labels l = none) :
    s.target l = .error .unresolvedLabel := by
  simp [State.target, h]

/-! ## What each shape of instruction answers -/

/-- An operand combined with the accumulator. -/
theorem accumulate_eq (r : Byte → Byte → Byte) (f : Flags → Byte → Byte → Flags) (o : Operand) (s : State) :
    accumulate r f o s = .next (if readable o then
      ((s.setA (r s.a (s.operandByte o))).setFlags (f s.flags s.a (s.operandByte o))).advance
      else s.raiseFault .operandMissing) := by
  unfold accumulate
  cases h : readable o
  · simp [readOperand_unreadable s h]
  · simp [readOperand_readable s h]

/-- An operand compared with a register's value. -/
theorem compareWith_eq (v : Byte) (o : Operand) (s : State) :
    compareWith v o s = .next (if readable o then (s.setFlags (s.flags.compare v (s.operandByte o))).advance
      else s.raiseFault .operandMissing) := by
  unfold compareWith
  cases h : readable o
  · simp [readOperand_unreadable s h]
  · simp [readOperand_readable s h]

/-- BIT. -/
theorem execBit_eq (o : Operand) (s : State) :
    execBit o s = .next (if readable o then (s.setFlags (s.flags.afterBit s.a (s.operandByte o))).advance
      else s.raiseFault .operandMissing) := by
  unfold execBit
  cases h : readable o
  · simp [readOperand_unreadable s h]
  · simp [readOperand_readable s h]

/-- A load. -/
theorem orFault_moved_eq (set : State → Byte → State) (o : Operand) (s : State) :
    orFault s (s.readOperand o) (fun m => moved set m s) = .next (if readable o then
      ((set s (s.operandByte o)).setFlags (s.flags.setNZ (s.operandByte o))).advance
      else s.raiseFault .operandMissing) := by
  cases h : readable o
  · simp [readOperand_unreadable s h]
  · simp [readOperand_readable s h, moved]

/-- A store. -/
theorem storeByte_eq (v : Byte) (o : Operand) (s : State) :
    storeByte v o s = .next (if inMemory o then (s.writeByte (s.addressOf o) v).advance
      else s.raiseFault .noStoreTarget) := by
  unfold storeByte
  cases h : inMemory o
  · simp [storeAddr_notInMemory s h]
  · simp [storeAddr_inMemory s h]

/-- A read-modify-write instruction on a memory cell. -/
theorem readModifyWrite_inMemory (acc : Bool) (op : ByteOp) {o : Operand} (s : State) (h : inMemory o = true) :
    readModifyWrite acc op o s = .next ((s.writeByte (s.addressOf o) (op s.flags (s.readByte (s.addressOf o))).1).setFlags
      (op s.flags (s.readByte (s.addressOf o))).2).advance := by
  simp [readModifyWrite, rmwTarget_inMemory s acc h, State.rmwRead, State.rmwWrite]

/-- A read-modify-write instruction on the accumulator. -/
theorem readModifyWrite_accumulator (op : ByteOp) (s : State) :
    readModifyWrite true op .implied s = .next ((s.setA (op s.flags s.a).1).setFlags (op s.flags s.a).2).advance := by
  simp [readModifyWrite, rmwTarget_accumulator, State.rmwRead, State.rmwWrite]

/-- A read-modify-write instruction without a target. -/
theorem readModifyWrite_none (acc : Bool) (op : ByteOp) {o : Operand} (s : State) (h : inMemory o = false)
    (ho : acc = false ∨ o ≠ .implied) : readModifyWrite acc op o s = .next (s.raiseFault .noStoreTarget) := by
  simp [readModifyWrite, rmwTarget_none s h ho]

/-- A shift or a rotate, in all its cases. -/
theorem readModifyWrite_true_eq (op : ByteOp) (o : Operand) (s : State) :
    readModifyWrite true op o s = .next (if inMemory o then
      ((s.writeByte (s.addressOf o) (op s.flags (s.readByte (s.addressOf o))).1).setFlags
        (op s.flags (s.readByte (s.addressOf o))).2).advance
      else if o = .implied then ((s.setA (op s.flags s.a).1).setFlags (op s.flags s.a).2).advance
      else s.raiseFault .noStoreTarget) := by
  split
  · next h => exact readModifyWrite_inMemory true op s h
  · next h =>
    split
    · next ho => subst ho; exact readModifyWrite_accumulator op s
    · next ho => exact readModifyWrite_none true op s (by simpa using h) (.inr ho)

/-- INC or DEC, in all its cases. -/
theorem readModifyWrite_false_eq (op : ByteOp) (o : Operand) (s : State) :
    readModifyWrite false op o s = .next (if inMemory o then
      ((s.writeByte (s.addressOf o) (op s.flags (s.readByte (s.addressOf o))).1).setFlags
        (op s.flags (s.readByte (s.addressOf o))).2).advance
      else s.raiseFault .noStoreTarget) := by
  split
  · next h => exact readModifyWrite_inMemory false op s h
  · next h => exact readModifyWrite_none false op s (by simpa using h) (.inl rfl)

/-- A conditional branch. -/
theorem branch_eq (taken : Bool) (l : Text) (s : State) :
    branch taken l s = .next ((lookupLabel s.labels l).elim (s.raiseFault .unresolvedLabel) fun i =>
      if taken then s.setPc i else s.advance) := by
  unfold branch
  cases h : lookupLabel s.labels l
  · simp [target_unresolved h]
  · simp [target_found h]

/-- JMP. -/
theorem execJmp_eq (l : Text) (s : State) :
    execJmp l s = .next ((lookupLabel s.labels l).elim (s.raiseFault .unresolvedLabel) fun i =>
      s.setPc i) := by
  unfold execJmp
  cases h : lookupLabel s.labels l
  · simp [target_unresolved h]
  · simp [target_found h]

/-- JSR. -/
theorem execJsr_eq (l : Text) (s : State) :
    execJsr l s = .next ((lookupLabel s.labels l).elim (s.raiseFault .unresolvedLabel) fun i =>
      if s.callStackFull then s.raiseFault .callStackOverflow
        else (s.setCallStack (s.pc :: s.callStack)).setPc i) := by
  unfold execJsr
  cases h : lookupLabel s.labels l
  · simp [target_unresolved h]
  · simp only [target_found h, orFault_ok, Option.elim]
    split <;> rfl

/-- RTS. -/
theorem execRts_eq (s : State) :
    execRts s = .next (match s.callStack with
      | j :: cs => (s.setCallStack cs).setPc (j + 1)
      | [] => s.raiseFault .callStackEmpty) := by
  unfold execRts
  split <;> simp_all

/-- PHA. -/
theorem execPha_eq (s : State) :
    execPha s = .next (if s.sp16 = Config.stackLimit then s.raiseFault .stackOverflow
      else ((s.writeByte s.sp16 s.a).setSp16 (s.sp16 - 1)).advance) := by
  unfold execPha
  split <;> rfl

/-- PLA. -/
theorem execPla_eq (s : State) :
    execPla s = .next (if s.sp16 = Config.stackTop then s.raiseFault .stackUnderflow
      else (((s.setSp16 (s.sp16 + 1)).setA (s.readByte (s.sp16 + 1))).setFlags
        (s.flags.setNZ (s.readByte (s.sp16 + 1)))).advance) := by
  unfold execPla moved
  split <;> simp

/-- ADC. -/
theorem execAdc_eq (o : Operand) (s : State) :
    execAdc o s = .next (if s.flags.d then s.raiseFault .decimalUnsupported
      else if readable o then
        ((s.setA (adcResult s.a (s.operandByte o))).setFlags (s.flags.afterAdc s.a (s.operandByte o))).advance
      else s.raiseFault .operandMissing) := by
  unfold execAdc binaryOnly
  split
  · rfl
  · exact accumulate_eq ..

/-- SBC. -/
theorem execSbc_eq (o : Operand) (s : State) :
    execSbc o s = .next (if s.flags.d then s.raiseFault .decimalUnsupported
      else if readable o then
        ((s.setA (sbcResult s.a (s.operandByte o))).setFlags (s.flags.afterSbc s.a (s.operandByte o))).advance
      else s.raiseFault .operandMissing) := by
  unfold execSbc binaryOnly
  split
  · rfl
  · exact accumulate_eq ..

/-! ## Flags -/

/-- `SetNZ` in the terms of claims. -/
theorem setNZ_eq (f : Flags) (v : Byte) : f.setNZ v = withNZ f v := by
  have hz : (v == 0) = decide (v.toNat = 0) := by
    rw [Bool.eq_iff_iff]; simp [← BitVec.toNat_inj]
  have hn : v.msb = decide (128 ≤ v.toNat) := by simp [BitVec.msb_eq_decide]
  simp only [Flags.setNZ, withNZ]
  rw [hz, hn]

/-! ## The step -/

theorem finishStep_faulted {s : State} {c : FaultCode} {k : Nat} (h : s.status = .faulted c k) : s.finishStep = s := by
  simp [State.finishStep, h]

theorem finishStep_ok {s : State} (h : ∀ c k, s.status ≠ .faulted c k) : s.finishStep = s.postInstruction := by
  unfold State.finishStep
  split
  · next c k hs => exact absurd hs (h c k)
  · rfl
  · rfl

/-- The end of a step changes memory and the count of draws only. -/
theorem finishStep_frame (s : State) :
    s.finishStep = { s with mem := s.finishStep.mem, drawIndex := s.finishStep.drawIndex } := by
  unfold State.finishStep
  split <;> rfl

theorem finishStep_wf {s : State} (h : s.mem.wf = true) : s.finishStep.mem.wf = true := by
  unfold State.finishStep
  split
  · exact h
  · exact State.postInstruction_wf h
  · exact State.postInstruction_wf h

/-- A running engine, with a record at its index. -/
theorem step_fetched {s t : State} {i : Instr} (hr : s.status = .running) (hi : s.program[s.pc]? = some i)
    (he : exec i s.beginStep = .next t) : step s = .next t.finishStep := by
  have hf : s.beginStep.fetch = some i := hi
  simp only [step, hr, hf, he]

/-- A running engine at the end of its program. -/
theorem step_end {s : State} (hr : s.status = .running) (hi : s.program[s.pc]? = none) :
    step s = .next (s.beginStep.halt .endOfProgram) := by
  simp only [step, hr, State.fetch_eq, State.beginStep_eq, State.setFrame_program, State.setFrame_pc, hi]

end Sys2Proof.Machine
end

