-- ==== Sys2Proof/Laws/Exec.lean ====
section
/-! SUPPORT. What `exec` answers for each instruction, as one next state: its effect or the fault it raises. Later
proofs rewrite with these lemmas and unfold no meaning. -/

namespace Sys2Proof.Machine

theorem exec_adc (o : Operand) (s : State) :
    exec (.adc o) s = .next (if s.flags.d then s.raiseFault .decimalUnsupported
      else if readable o then ((s.setA (adcResult s.a (s.operandByte o))).setFlags (s.flags.afterAdc s.a (s.operandByte o))).advance
      else s.raiseFault .operandMissing) := execAdc_eq o s

theorem exec_sbc (o : Operand) (s : State) :
    exec (.sbc o) s = .next (if s.flags.d then s.raiseFault .decimalUnsupported
      else if readable o then ((s.setA (sbcResult s.a (s.operandByte o))).setFlags (s.flags.afterSbc s.a (s.operandByte o))).advance
      else s.raiseFault .operandMissing) := execSbc_eq o s

theorem exec_and (o : Operand) (s : State) :
    exec (.and o) s = .next (if readable o then ((s.setA (s.a &&& s.operandByte o)).setFlags (s.flags.setNZ (s.a &&& s.operandByte o))).advance
      else s.raiseFault .operandMissing) :=
  accumulate_eq (fun a m => a &&& m) (fun f a m => f.setNZ (a &&& m)) o s

theorem exec_ora (o : Operand) (s : State) :
    exec (.ora o) s = .next (if readable o then ((s.setA (s.a ||| s.operandByte o)).setFlags (s.flags.setNZ (s.a ||| s.operandByte o))).advance
      else s.raiseFault .operandMissing) :=
  accumulate_eq (fun a m => a ||| m) (fun f a m => f.setNZ (a ||| m)) o s

theorem exec_eor (o : Operand) (s : State) :
    exec (.eor o) s = .next (if readable o then ((s.setA (s.a ^^^ s.operandByte o)).setFlags (s.flags.setNZ (s.a ^^^ s.operandByte o))).advance
      else s.raiseFault .operandMissing) :=
  accumulate_eq (fun a m => a ^^^ m) (fun f a m => f.setNZ (a ^^^ m)) o s

theorem exec_bit (o : Operand) (s : State) :
    exec (.bit o) s = .next (if readable o then (s.setFlags (s.flags.afterBit s.a (s.operandByte o))).advance
      else s.raiseFault .operandMissing) := execBit_eq o s

theorem exec_cmp (o : Operand) (s : State) :
    exec (.cmp o) s = .next (if readable o then (s.setFlags (s.flags.compare s.a (s.operandByte o))).advance
      else s.raiseFault .operandMissing) := compareWith_eq _ o s

theorem exec_cpx (o : Operand) (s : State) :
    exec (.cpx o) s = .next (if readable o then (s.setFlags (s.flags.compare s.x (s.operandByte o))).advance
      else s.raiseFault .operandMissing) := compareWith_eq _ o s

theorem exec_cpy (o : Operand) (s : State) :
    exec (.cpy o) s = .next (if readable o then (s.setFlags (s.flags.compare s.y (s.operandByte o))).advance
      else s.raiseFault .operandMissing) := compareWith_eq _ o s

theorem exec_lda (o : Operand) (s : State) :
    exec (.lda o) s = .next (if readable o then ((s.setA (s.operandByte o)).setFlags (s.flags.setNZ (s.operandByte o))).advance
      else s.raiseFault .operandMissing) := orFault_moved_eq State.setA o s

theorem exec_ldx (o : Operand) (s : State) :
    exec (.ldx o) s = .next (if readable o then ((s.setX (s.operandByte o)).setFlags (s.flags.setNZ (s.operandByte o))).advance
      else s.raiseFault .operandMissing) := orFault_moved_eq State.setX o s

theorem exec_ldy (o : Operand) (s : State) :
    exec (.ldy o) s = .next (if readable o then ((s.setY (s.operandByte o)).setFlags (s.flags.setNZ (s.operandByte o))).advance
      else s.raiseFault .operandMissing) := orFault_moved_eq State.setY o s

theorem exec_sta (o : Operand) (s : State) :
    exec (.sta o) s = .next (if inMemory o then (s.writeByte (s.addressOf o) s.a).advance
      else s.raiseFault .noStoreTarget) := storeByte_eq _ o s

theorem exec_stx (o : Operand) (s : State) :
    exec (.stx o) s = .next (if inMemory o then (s.writeByte (s.addressOf o) s.x).advance
      else s.raiseFault .noStoreTarget) := storeByte_eq _ o s

theorem exec_sty (o : Operand) (s : State) :
    exec (.sty o) s = .next (if inMemory o then (s.writeByte (s.addressOf o) s.y).advance
      else s.raiseFault .noStoreTarget) := storeByte_eq _ o s

theorem exec_asl (o : Operand) (s : State) :
    exec (.asl o) s = .next (if inMemory o then
      ((s.writeByte (s.addressOf o) (aslByte s.flags (s.readByte (s.addressOf o))).1).setFlags (aslByte s.flags (s.readByte (s.addressOf o))).2).advance
      else if o = .implied then ((s.setA (aslByte s.flags s.a).1).setFlags (aslByte s.flags s.a).2).advance
      else s.raiseFault .noStoreTarget) := readModifyWrite_true_eq aslByte o s

theorem exec_lsr (o : Operand) (s : State) :
    exec (.lsr o) s = .next (if inMemory o then
      ((s.writeByte (s.addressOf o) (lsrByte s.flags (s.readByte (s.addressOf o))).1).setFlags (lsrByte s.flags (s.readByte (s.addressOf o))).2).advance
      else if o = .implied then ((s.setA (lsrByte s.flags s.a).1).setFlags (lsrByte s.flags s.a).2).advance
      else s.raiseFault .noStoreTarget) := readModifyWrite_true_eq lsrByte o s

theorem exec_rol (o : Operand) (s : State) :
    exec (.rol o) s = .next (if inMemory o then
      ((s.writeByte (s.addressOf o) (rolByte s.flags (s.readByte (s.addressOf o))).1).setFlags (rolByte s.flags (s.readByte (s.addressOf o))).2).advance
      else if o = .implied then ((s.setA (rolByte s.flags s.a).1).setFlags (rolByte s.flags s.a).2).advance
      else s.raiseFault .noStoreTarget) := readModifyWrite_true_eq rolByte o s

theorem exec_ror (o : Operand) (s : State) :
    exec (.ror o) s = .next (if inMemory o then
      ((s.writeByte (s.addressOf o) (rorByte s.flags (s.readByte (s.addressOf o))).1).setFlags (rorByte s.flags (s.readByte (s.addressOf o))).2).advance
      else if o = .implied then ((s.setA (rorByte s.flags s.a).1).setFlags (rorByte s.flags s.a).2).advance
      else s.raiseFault .noStoreTarget) := readModifyWrite_true_eq rorByte o s

theorem exec_inc (o : Operand) (s : State) :
    exec (.inc o) s = .next (if inMemory o then
      ((s.writeByte (s.addressOf o) (incByte s.flags (s.readByte (s.addressOf o))).1).setFlags (incByte s.flags (s.readByte (s.addressOf o))).2).advance
      else s.raiseFault .noStoreTarget) := readModifyWrite_false_eq incByte o s

theorem exec_dec (o : Operand) (s : State) :
    exec (.dec o) s = .next (if inMemory o then
      ((s.writeByte (s.addressOf o) (decByte s.flags (s.readByte (s.addressOf o))).1).setFlags (decByte s.flags (s.readByte (s.addressOf o))).2).advance
      else s.raiseFault .noStoreTarget) := readModifyWrite_false_eq decByte o s

theorem exec_tax (o : Operand) (s : State) :
    exec (.tax o) s = .next (((s.setX s.a).setFlags (s.flags.setNZ s.a)).advance) := rfl

theorem exec_txa (o : Operand) (s : State) :
    exec (.txa o) s = .next (((s.setA s.x).setFlags (s.flags.setNZ s.x)).advance) := rfl

theorem exec_tay (o : Operand) (s : State) :
    exec (.tay o) s = .next (((s.setY s.a).setFlags (s.flags.setNZ s.a)).advance) := rfl

theorem exec_tya (o : Operand) (s : State) :
    exec (.tya o) s = .next (((s.setA s.y).setFlags (s.flags.setNZ s.y)).advance) := rfl

theorem exec_tsx (o : Operand) (s : State) :
    exec (.tsx o) s = .next (((s.setX s.sp).setFlags (s.flags.setNZ s.sp)).advance) := rfl

theorem exec_txs (o : Operand) (s : State) :
    exec (.txs o) s = .next ((s.setSp16 (pageOne s.x)).advance) := rfl

theorem exec_pha (o : Operand) (s : State) :
    exec (.pha o) s = .next (if s.sp16 = Config.stackLimit then s.raiseFault .stackOverflow
      else ((s.writeByte s.sp16 s.a).setSp16 (s.sp16 - 1)).advance) := execPha_eq s

theorem exec_pla (o : Operand) (s : State) :
    exec (.pla o) s = .next (if s.sp16 = Config.stackTop then s.raiseFault .stackUnderflow
      else (((s.setSp16 (s.sp16 + 1)).setA (s.readByte (s.sp16 + 1))).setFlags
        (s.flags.setNZ (s.readByte (s.sp16 + 1)))).advance) := execPla_eq s

theorem exec_inx (o : Operand) (s : State) :
    exec (.inx o) s = .next (((s.setX (incByte s.flags s.x).1).setFlags (incByte s.flags s.x).2).advance) := rfl

theorem exec_iny (o : Operand) (s : State) :
    exec (.iny o) s = .next (((s.setY (incByte s.flags s.y).1).setFlags (incByte s.flags s.y).2).advance) := rfl

theorem exec_dex (o : Operand) (s : State) :
    exec (.dex o) s = .next (((s.setX (decByte s.flags s.x).1).setFlags (decByte s.flags s.x).2).advance) := rfl

theorem exec_dey (o : Operand) (s : State) :
    exec (.dey o) s = .next (((s.setY (decByte s.flags s.y).1).setFlags (decByte s.flags s.y).2).advance) := rfl

theorem exec_bcc (o : Operand) (l : Text) (s : State) :
    exec (.bcc o l) s = .next ((lookupLabel s.labels l).elim (s.raiseFault .unresolvedLabel) fun i =>
      if !s.flags.c then s.setPc i else s.advance) := branch_eq _ l s

theorem exec_bcs (o : Operand) (l : Text) (s : State) :
    exec (.bcs o l) s = .next ((lookupLabel s.labels l).elim (s.raiseFault .unresolvedLabel) fun i =>
      if s.flags.c then s.setPc i else s.advance) := branch_eq _ l s

theorem exec_beq (o : Operand) (l : Text) (s : State) :
    exec (.beq o l) s = .next ((lookupLabel s.labels l).elim (s.raiseFault .unresolvedLabel) fun i =>
      if s.flags.z then s.setPc i else s.advance) := branch_eq _ l s

theorem exec_bne (o : Operand) (l : Text) (s : State) :
    exec (.bne o l) s = .next ((lookupLabel s.labels l).elim (s.raiseFault .unresolvedLabel) fun i =>
      if !s.flags.z then s.setPc i else s.advance) := branch_eq _ l s

theorem exec_bmi (o : Operand) (l : Text) (s : State) :
    exec (.bmi o l) s = .next ((lookupLabel s.labels l).elim (s.raiseFault .unresolvedLabel) fun i =>
      if s.flags.n then s.setPc i else s.advance) := branch_eq _ l s

theorem exec_bpl (o : Operand) (l : Text) (s : State) :
    exec (.bpl o l) s = .next ((lookupLabel s.labels l).elim (s.raiseFault .unresolvedLabel) fun i =>
      if !s.flags.n then s.setPc i else s.advance) := branch_eq _ l s

theorem exec_bvc (o : Operand) (l : Text) (s : State) :
    exec (.bvc o l) s = .next ((lookupLabel s.labels l).elim (s.raiseFault .unresolvedLabel) fun i =>
      if !s.flags.v then s.setPc i else s.advance) := branch_eq _ l s

theorem exec_bvs (o : Operand) (l : Text) (s : State) :
    exec (.bvs o l) s = .next ((lookupLabel s.labels l).elim (s.raiseFault .unresolvedLabel) fun i =>
      if s.flags.v then s.setPc i else s.advance) := branch_eq _ l s

theorem exec_jmp (o : Operand) (l : Text) (s : State) :
    exec (.jmp o l) s = .next ((lookupLabel s.labels l).elim (s.raiseFault .unresolvedLabel) fun i =>
      s.setPc i) := execJmp_eq l s

theorem exec_jsr (o : Operand) (l : Text) (s : State) :
    exec (.jsr o l) s = .next ((lookupLabel s.labels l).elim (s.raiseFault .unresolvedLabel) fun i =>
      if s.callStackFull then s.raiseFault .callStackOverflow
        else (s.setCallStack (s.pc :: s.callStack)).setPc i) := execJsr_eq l s

theorem exec_rts (o : Operand) (s : State) :
    exec (.rts o) s = .next (match s.callStack with
      | j :: cs => (s.setCallStack cs).setPc (j + 1)
      | [] => s.raiseFault .callStackEmpty) := execRts_eq s

theorem exec_rti (o : Operand) (s : State) :
    exec (.rti o) s = .next (s.raiseFault .rtiUnsupported) := rfl

theorem exec_clc (o : Operand) (s : State) :
    exec (.clc o) s = .next (s.setFlags { s.flags with c := false }).advance := rfl

theorem exec_sec (o : Operand) (s : State) :
    exec (.sec o) s = .next (s.setFlags { s.flags with c := true }).advance := rfl

theorem exec_cli (o : Operand) (s : State) :
    exec (.cli o) s = .next (s.setFlags { s.flags with i := false }).advance := rfl

theorem exec_sei (o : Operand) (s : State) :
    exec (.sei o) s = .next (s.setFlags { s.flags with i := true }).advance := rfl

theorem exec_clv (o : Operand) (s : State) :
    exec (.clv o) s = .next (s.setFlags { s.flags with v := false }).advance := rfl

theorem exec_cld (o : Operand) (s : State) :
    exec (.cld o) s = .next (s.setFlags { s.flags with d := false }).advance := rfl

theorem exec_sed (o : Operand) (s : State) :
    exec (.sed o) s = .next (s.setFlags { s.flags with d := true }).advance := rfl

theorem exec_nop (o : Operand) (s : State) :
    exec (.nop o) s = .next (s.advance) := rfl

theorem exec_brk (o : Operand) (s : State) :
    exec (.brk o) s = .next (s.halt .brk) := rfl

theorem exec_drw (o : Operand) (s : State) :
    exec (.drw o) s = .next ((s.setFrame true).advance) := rfl

theorem exec_label (n : Text) (s : State) :
    exec (.label n) s = .next (s.advance) := rfl

/-- Every instruction answers a next state (R104, R252). -/
theorem exec_next (i : Instr) (s : State) : ∃ t, exec i s = .next t := by
  cases i with
  | adc o => exact ⟨_, exec_adc o s⟩
  | and o => exact ⟨_, exec_and o s⟩
  | asl o => exact ⟨_, exec_asl o s⟩
  | bcc o l => exact ⟨_, exec_bcc o l s⟩
  | bcs o l => exact ⟨_, exec_bcs o l s⟩
  | beq o l => exact ⟨_, exec_beq o l s⟩
  | bit o => exact ⟨_, exec_bit o s⟩
  | bmi o l => exact ⟨_, exec_bmi o l s⟩
  | bne o l => exact ⟨_, exec_bne o l s⟩
  | bpl o l => exact ⟨_, exec_bpl o l s⟩
  | brk o => exact ⟨_, exec_brk o s⟩
  | bvc o l => exact ⟨_, exec_bvc o l s⟩
  | bvs o l => exact ⟨_, exec_bvs o l s⟩
  | clc o => exact ⟨_, exec_clc o s⟩
  | cld o => exact ⟨_, exec_cld o s⟩
  | cli o => exact ⟨_, exec_cli o s⟩
  | clv o => exact ⟨_, exec_clv o s⟩
  | cmp o => exact ⟨_, exec_cmp o s⟩
  | cpx o => exact ⟨_, exec_cpx o s⟩
  | cpy o => exact ⟨_, exec_cpy o s⟩
  | dec o => exact ⟨_, exec_dec o s⟩
  | dex o => exact ⟨_, exec_dex o s⟩
  | dey o => exact ⟨_, exec_dey o s⟩
  | drw o => exact ⟨_, exec_drw o s⟩
  | eor o => exact ⟨_, exec_eor o s⟩
  | inc o => exact ⟨_, exec_inc o s⟩
  | inx o => exact ⟨_, exec_inx o s⟩
  | iny o => exact ⟨_, exec_iny o s⟩
  | jmp o l => exact ⟨_, exec_jmp o l s⟩
  | jsr o l => exact ⟨_, exec_jsr o l s⟩
  | lda o => exact ⟨_, exec_lda o s⟩
  | ldx o => exact ⟨_, exec_ldx o s⟩
  | ldy o => exact ⟨_, exec_ldy o s⟩
  | lsr o => exact ⟨_, exec_lsr o s⟩
  | nop o => exact ⟨_, exec_nop o s⟩
  | ora o => exact ⟨_, exec_ora o s⟩
  | pha o => exact ⟨_, exec_pha o s⟩
  | pla o => exact ⟨_, exec_pla o s⟩
  | rol o => exact ⟨_, exec_rol o s⟩
  | ror o => exact ⟨_, exec_ror o s⟩
  | rti o => exact ⟨_, exec_rti o s⟩
  | rts o => exact ⟨_, exec_rts o s⟩
  | sbc o => exact ⟨_, exec_sbc o s⟩
  | sec o => exact ⟨_, exec_sec o s⟩
  | sed o => exact ⟨_, exec_sed o s⟩
  | sei o => exact ⟨_, exec_sei o s⟩
  | sta o => exact ⟨_, exec_sta o s⟩
  | stx o => exact ⟨_, exec_stx o s⟩
  | sty o => exact ⟨_, exec_sty o s⟩
  | tax o => exact ⟨_, exec_tax o s⟩
  | tay o => exact ⟨_, exec_tay o s⟩
  | tsx o => exact ⟨_, exec_tsx o s⟩
  | txa o => exact ⟨_, exec_txa o s⟩
  | txs o => exact ⟨_, exec_txs o s⟩
  | tya o => exact ⟨_, exec_tya o s⟩
  | label n => exact ⟨_, exec_label n s⟩

/-! ## Everything an instruction can do -/

/-- What a non-redirecting instruction leaves: the index one higher; the call stack, the program store, the status and
the count of draws as before; at most one byte written; SP16 as before, set by TXS, or moved by one by PHA or PLA. -/
structure DataEffect (s t : State) : Prop where
  pc : t.pc = s.pc + 1
  callStack : t.callStack = s.callStack
  program : t.program = s.program
  labels : t.labels = s.labels
  status : t.status = s.status
  drawIndex : t.drawIndex = s.drawIndex
  mem : t.mem = s.mem ∨ ∃ a v, t.mem = s.mem.write a v
  sp : t.sp16 = s.sp16 ∨ (∃ v, t.sp16 = pageOne v) ∨ (s.sp16 ≠ Config.stackLimit ∧ t.sp16 = s.sp16 - 1) ∨
    (s.sp16 ≠ Config.stackTop ∧ t.sp16 = s.sp16 + 1)

/-- The effects an instruction can have on a state. -/
inductive Effect (i : Instr) (s : State) : State → Prop where
  | fault (c : FaultCode) : Effect i s (s.raiseFault c)
  | halt (o : Operand) (h : i = .brk o) : Effect i s (s.halt .brk)
  | jump (k : Nat) (h : i.opcode.isTransfer = true) (hk : lookupLabel s.labels i.labelName = some k) :
      Effect i s (s.setPc k)
  | call (o : Operand) (l : Text) (k : Nat) (h : i = .jsr o l) (hk : lookupLabel s.labels l = some k)
      (hf : s.callStackFull = false) : Effect i s ((s.setCallStack (s.pc :: s.callStack)).setPc k)
  | ret (o : Operand) (j : Nat) (cs : List Nat) (h : i = .rts o) (hc : s.callStack = j :: cs) :
      Effect i s ((s.setCallStack cs).setPc (j + 1))
  | data (t : State) (h : DataEffect s t) : Effect i s t

/-- A computation on registers and flags. -/
theorem Effect.registers (i : Instr) (s : State) (a x y : Byte) (f : Flags) (b : Bool) :
    Effect i s { s with a := a, x := x, y := y, flags := f, frame := b, pc := s.pc + 1 } :=
  .data _ ⟨rfl, rfl, rfl, rfl, rfl, rfl, .inl rfl, .inl rfl⟩

/-- A store of one byte. -/
theorem Effect.store (i : Instr) (s : State) (a : Half) (v : Byte) (f : Flags) :
    Effect i s ((s.writeByte a v).setFlags f).advance :=
  .data _ ⟨rfl, rfl, rfl, rfl, rfl, rfl, .inr ⟨_, _, rfl⟩, .inl rfl⟩

/-- A conditional branch or a jump. -/
theorem Effect.transfer (i : Instr) (s : State) (taken : Bool) (h : i.opcode.isTransfer = true) :
    Effect i s ((lookupLabel s.labels i.labelName).elim (s.raiseFault .unresolvedLabel) fun k =>
      if taken then s.setPc k else s.advance) := by
  cases hk : lookupLabel s.labels i.labelName with
  | none => exact .fault _
  | some k =>
    cases taken
    · exact .registers i s s.a s.x s.y s.flags s.frame
    · exact .jump k h hk

/-- A choice between an effect and a fault. -/
theorem Effect.orElse {i : Instr} {s t : State} (c : FaultCode) (p : Prop) [Decidable p] (h : p → Effect i s t) :
    Effect i s (if p then t else s.raiseFault c) := by
  split
  · next hp => exact h hp
  · exact .fault c

/-- Everything an instruction can do: one of the effects above. -/
theorem exec_effect {i : Instr} {s t : State} (h : exec i s = .next t) : Effect i s t := by
  have key {u : State} (hu : exec i s = .next u) (he : Effect i s u) : Effect i s t := by
    rw [h] at hu; cases hu; exact he
  cases i with
  | adc o => exact key (exec_adc o s) (by split; exacts [.fault _, .orElse _ _ fun _ => .registers ..])
  | and o => exact key (exec_and o s) (.orElse _ _ fun _ => .registers ..)
  | asl o => exact key (exec_asl o s) (by split; exacts [.store .., .orElse _ _ fun _ => .registers ..])
  | bcc o l => exact key (exec_bcc o l s) (Effect.transfer (.bcc o l) s _ rfl)
  | bcs o l => exact key (exec_bcs o l s) (Effect.transfer (.bcs o l) s _ rfl)
  | beq o l => exact key (exec_beq o l s) (Effect.transfer (.beq o l) s _ rfl)
  | bit o => exact key (exec_bit o s) (.orElse _ _ fun _ => .registers ..)
  | bmi o l => exact key (exec_bmi o l s) (Effect.transfer (.bmi o l) s _ rfl)
  | bne o l => exact key (exec_bne o l s) (Effect.transfer (.bne o l) s _ rfl)
  | bpl o l => exact key (exec_bpl o l s) (Effect.transfer (.bpl o l) s _ rfl)
  | brk o => exact key (exec_brk o s) (.halt o rfl)
  | bvc o l => exact key (exec_bvc o l s) (Effect.transfer (.bvc o l) s _ rfl)
  | bvs o l => exact key (exec_bvs o l s) (Effect.transfer (.bvs o l) s _ rfl)
  | clc o => exact key (exec_clc o s) (.registers ..)
  | cld o => exact key (exec_cld o s) (.registers ..)
  | cli o => exact key (exec_cli o s) (.registers ..)
  | clv o => exact key (exec_clv o s) (.registers ..)
  | cmp o => exact key (exec_cmp o s) (.orElse _ _ fun _ => .registers ..)
  | cpx o => exact key (exec_cpx o s) (.orElse _ _ fun _ => .registers ..)
  | cpy o => exact key (exec_cpy o s) (.orElse _ _ fun _ => .registers ..)
  | dec o => exact key (exec_dec o s) (.orElse _ _ fun _ => .store ..)
  | dex o => exact key (exec_dex o s) (.registers ..)
  | dey o => exact key (exec_dey o s) (.registers ..)
  | drw o => exact key (exec_drw o s) (.registers ..)
  | eor o => exact key (exec_eor o s) (.orElse _ _ fun _ => .registers ..)
  | inc o => exact key (exec_inc o s) (.orElse _ _ fun _ => .store ..)
  | inx o => exact key (exec_inx o s) (.registers ..)
  | iny o => exact key (exec_iny o s) (.registers ..)
  | jmp o l => exact key (exec_jmp o l s) (Effect.transfer (.jmp o l) s true rfl)
  | jsr o l => exact key (exec_jsr o l s) (by
      cases hk : lookupLabel s.labels l with
      | none => exact .fault _
      | some k =>
        cases hf : s.callStackFull
        · simpa [hf] using Effect.call (i := .jsr o l) (s := s) o l k rfl hk hf
        · simpa [hf] using Effect.fault (i := .jsr o l) (s := s) .callStackOverflow)
  | lda o => exact key (exec_lda o s) (.orElse _ _ fun _ => .registers ..)
  | ldx o => exact key (exec_ldx o s) (.orElse _ _ fun _ => .registers ..)
  | ldy o => exact key (exec_ldy o s) (.orElse _ _ fun _ => .registers ..)
  | lsr o => exact key (exec_lsr o s) (by split; exacts [.store .., .orElse _ _ fun _ => .registers ..])
  | nop o => exact key (exec_nop o s) (.registers ..)
  | ora o => exact key (exec_ora o s) (.orElse _ _ fun _ => .registers ..)
  | pha o => exact key (exec_pha o s) (by
      split
      · exact .fault _
      · next hs => exact .data _ ⟨rfl, rfl, rfl, rfl, rfl, rfl, .inr ⟨_, _, rfl⟩, .inr (.inr (.inl ⟨hs, rfl⟩))⟩)
  | pla o => exact key (exec_pla o s) (by
      split
      · exact .fault _
      · next hs => exact .data _ ⟨rfl, rfl, rfl, rfl, rfl, rfl, .inl rfl, .inr (.inr (.inr ⟨hs, rfl⟩))⟩)
  | rol o => exact key (exec_rol o s) (by split; exacts [.store .., .orElse _ _ fun _ => .registers ..])
  | ror o => exact key (exec_ror o s) (by split; exacts [.store .., .orElse _ _ fun _ => .registers ..])
  | rti o => exact key (exec_rti o s) (.fault _)
  | rts o => exact key (exec_rts o s) (by
      split
      · next hc => exact .ret o _ _ rfl hc
      · exact .fault _)
  | sbc o => exact key (exec_sbc o s) (by split; exacts [.fault _, .orElse _ _ fun _ => .registers ..])
  | sec o => exact key (exec_sec o s) (.registers ..)
  | sed o => exact key (exec_sed o s) (.registers ..)
  | sei o => exact key (exec_sei o s) (.registers ..)
  | sta o => exact key (exec_sta o s) (.orElse _ _ fun _ => .store _ _ _ _ s.flags)
  | stx o => exact key (exec_stx o s) (.orElse _ _ fun _ => .store _ _ _ _ s.flags)
  | sty o => exact key (exec_sty o s) (.orElse _ _ fun _ => .store _ _ _ _ s.flags)
  | tax o => exact key (exec_tax o s) (.registers ..)
  | tay o => exact key (exec_tay o s) (.registers ..)
  | tsx o => exact key (exec_tsx o s) (.registers ..)
  | txa o => exact key (exec_txa o s) (.registers ..)
  | txs o => exact key (exec_txs o s) (.data _ ⟨rfl, rfl, rfl, rfl, rfl, rfl, .inl rfl, .inr (.inl ⟨_, rfl⟩)⟩)
  | tya o => exact key (exec_tya o s) (.registers ..)
  | label n => exact key (exec_label n s) (.registers ..)

/-! ## The step -/

/-- Everything a step can do: halt at the end of the program, or run the record at the index. -/
theorem step_cases {s t : State} (h : step s = .next t) : s.status = .running ∧
    ((s.program[s.pc]? = none ∧ t = s.beginStep.halt .endOfProgram) ∨
      ∃ i u, s.program[s.pc]? = some i ∧ exec i s.beginStep = .next u ∧ t = u.finishStep) := by
  have hr : s.status = .running := by
    unfold step at h
    split at h <;> first | cases h | assumption
  refine ⟨hr, ?_⟩
  cases hi : s.program[s.pc]? with
  | none => rw [step_end hr hi] at h; cases h; exact .inl ⟨rfl, rfl⟩
  | some i =>
    obtain ⟨u, hu⟩ := exec_next i s.beginStep
    rw [step_fetched hr hi hu] at h; cases h
    exact .inr ⟨i, u, rfl, hu, rfl⟩

end Sys2Proof.Machine
end

