-- ==== Sys2Proof/Laws/PerInstr.lean ====
section
/-! SUPPORT. Per-instruction families: one lemma per constructor of `Instr`. -/

namespace Sys2Proof.Laws.RecordFaithful

/-- The record's fields determine the instruction, and the opcode fits its 6 bits and the mode its 4 (R76 to R78). -/
def Statement (i : Instr) : Prop :=
  i.opcode.build i.operand i.labelName = i ∧ i.record.opcode.toNat = i.opcode.ordinal ∧
    i.record.mode.toNat = i.operand.mode.ordinal

theorem mode_fits (o : Operand) : (BitVec.ofNat 4 o.mode.ordinal).toNat = o.mode.ordinal := by cases o <;> rfl

theorem adc (o : Operand) : Statement (.adc o) := ⟨rfl, rfl, mode_fits o⟩
theorem and (o : Operand) : Statement (.and o) := ⟨rfl, rfl, mode_fits o⟩
theorem asl (o : Operand) : Statement (.asl o) := ⟨rfl, rfl, mode_fits o⟩
theorem bcc (o : Operand) (l : Text) : Statement (.bcc o l) := ⟨rfl, rfl, mode_fits o⟩
theorem bcs (o : Operand) (l : Text) : Statement (.bcs o l) := ⟨rfl, rfl, mode_fits o⟩
theorem beq (o : Operand) (l : Text) : Statement (.beq o l) := ⟨rfl, rfl, mode_fits o⟩
theorem bit (o : Operand) : Statement (.bit o) := ⟨rfl, rfl, mode_fits o⟩
theorem bmi (o : Operand) (l : Text) : Statement (.bmi o l) := ⟨rfl, rfl, mode_fits o⟩
theorem bne (o : Operand) (l : Text) : Statement (.bne o l) := ⟨rfl, rfl, mode_fits o⟩
theorem bpl (o : Operand) (l : Text) : Statement (.bpl o l) := ⟨rfl, rfl, mode_fits o⟩
theorem brk (o : Operand) : Statement (.brk o) := ⟨rfl, rfl, mode_fits o⟩
theorem bvc (o : Operand) (l : Text) : Statement (.bvc o l) := ⟨rfl, rfl, mode_fits o⟩
theorem bvs (o : Operand) (l : Text) : Statement (.bvs o l) := ⟨rfl, rfl, mode_fits o⟩
theorem clc (o : Operand) : Statement (.clc o) := ⟨rfl, rfl, mode_fits o⟩
theorem cld (o : Operand) : Statement (.cld o) := ⟨rfl, rfl, mode_fits o⟩
theorem cli (o : Operand) : Statement (.cli o) := ⟨rfl, rfl, mode_fits o⟩
theorem clv (o : Operand) : Statement (.clv o) := ⟨rfl, rfl, mode_fits o⟩
theorem cmp (o : Operand) : Statement (.cmp o) := ⟨rfl, rfl, mode_fits o⟩
theorem cpx (o : Operand) : Statement (.cpx o) := ⟨rfl, rfl, mode_fits o⟩
theorem cpy (o : Operand) : Statement (.cpy o) := ⟨rfl, rfl, mode_fits o⟩
theorem dec (o : Operand) : Statement (.dec o) := ⟨rfl, rfl, mode_fits o⟩
theorem dex (o : Operand) : Statement (.dex o) := ⟨rfl, rfl, mode_fits o⟩
theorem dey (o : Operand) : Statement (.dey o) := ⟨rfl, rfl, mode_fits o⟩
theorem drw (o : Operand) : Statement (.drw o) := ⟨rfl, rfl, mode_fits o⟩
theorem eor (o : Operand) : Statement (.eor o) := ⟨rfl, rfl, mode_fits o⟩
theorem inc (o : Operand) : Statement (.inc o) := ⟨rfl, rfl, mode_fits o⟩
theorem inx (o : Operand) : Statement (.inx o) := ⟨rfl, rfl, mode_fits o⟩
theorem iny (o : Operand) : Statement (.iny o) := ⟨rfl, rfl, mode_fits o⟩
theorem jmp (o : Operand) (l : Text) : Statement (.jmp o l) := ⟨rfl, rfl, mode_fits o⟩
theorem jsr (o : Operand) (l : Text) : Statement (.jsr o l) := ⟨rfl, rfl, mode_fits o⟩
theorem lda (o : Operand) : Statement (.lda o) := ⟨rfl, rfl, mode_fits o⟩
theorem ldx (o : Operand) : Statement (.ldx o) := ⟨rfl, rfl, mode_fits o⟩
theorem ldy (o : Operand) : Statement (.ldy o) := ⟨rfl, rfl, mode_fits o⟩
theorem lsr (o : Operand) : Statement (.lsr o) := ⟨rfl, rfl, mode_fits o⟩
theorem nop (o : Operand) : Statement (.nop o) := ⟨rfl, rfl, mode_fits o⟩
theorem ora (o : Operand) : Statement (.ora o) := ⟨rfl, rfl, mode_fits o⟩
theorem pha (o : Operand) : Statement (.pha o) := ⟨rfl, rfl, mode_fits o⟩
theorem pla (o : Operand) : Statement (.pla o) := ⟨rfl, rfl, mode_fits o⟩
theorem rol (o : Operand) : Statement (.rol o) := ⟨rfl, rfl, mode_fits o⟩
theorem ror (o : Operand) : Statement (.ror o) := ⟨rfl, rfl, mode_fits o⟩
theorem rti (o : Operand) : Statement (.rti o) := ⟨rfl, rfl, mode_fits o⟩
theorem rts (o : Operand) : Statement (.rts o) := ⟨rfl, rfl, mode_fits o⟩
theorem sbc (o : Operand) : Statement (.sbc o) := ⟨rfl, rfl, mode_fits o⟩
theorem sec (o : Operand) : Statement (.sec o) := ⟨rfl, rfl, mode_fits o⟩
theorem sed (o : Operand) : Statement (.sed o) := ⟨rfl, rfl, mode_fits o⟩
theorem sei (o : Operand) : Statement (.sei o) := ⟨rfl, rfl, mode_fits o⟩
theorem sta (o : Operand) : Statement (.sta o) := ⟨rfl, rfl, mode_fits o⟩
theorem stx (o : Operand) : Statement (.stx o) := ⟨rfl, rfl, mode_fits o⟩
theorem sty (o : Operand) : Statement (.sty o) := ⟨rfl, rfl, mode_fits o⟩
theorem tax (o : Operand) : Statement (.tax o) := ⟨rfl, rfl, mode_fits o⟩
theorem tay (o : Operand) : Statement (.tay o) := ⟨rfl, rfl, mode_fits o⟩
theorem tsx (o : Operand) : Statement (.tsx o) := ⟨rfl, rfl, mode_fits o⟩
theorem txa (o : Operand) : Statement (.txa o) := ⟨rfl, rfl, mode_fits o⟩
theorem txs (o : Operand) : Statement (.txs o) := ⟨rfl, rfl, mode_fits o⟩
theorem tya (o : Operand) : Statement (.tya o) := ⟨rfl, rfl, mode_fits o⟩
theorem label (n : Text) : Statement (.label n) := ⟨rfl, rfl, rfl⟩

end Sys2Proof.Laws.RecordFaithful
end

