-- ==== Sys2Proof/Tests/Slice0.lean ====
section
/-! SUPPORT. Tests: the well-formedness smoke tests, decoding, one or two single steps per instruction from the spec's
test vectors (95_test_vectors.md), and a witness for the hypotheses of each statement. -/

namespace Sys2Proof.Tests
open Sys2Proof.Machine

/-! ## Helpers -/

/-- The state after one step of a line, from the reset state changed by `f`. -/
def after (line : String) (f : State → State) : Option State :=
  match decode line.toList with
  | .ok i =>
    match step (f (State.resetWith [i, i, i] [])) with
    | .next t => some t
    | .fault _ => none
    | .refused _ => none
  | .error _ => none

/-- The flags whose letters stand in the text; the others are 0. -/
def flags (t : String) : Flags :=
  ⟨t.toList.contains 'C', t.toList.contains 'Z', t.toList.contains 'I', t.toList.contains 'D', t.toList.contains 'V',
    t.toList.contains 'N'⟩

/-- The setting of 95_test_vectors.md 2.11: `l` stands for index 6, and the instruction is at index 2. -/
def atTwo (f : String) (s : State) : State := { s with labels := [(['l'], 6)], pc := 2, flags := flags f }

/-- A program of one record, just after reset. -/
def one (i : Instr) : State := State.resetWith [i] []

/-- The lines of a program. -/
def text (ls : List String) : List Text := ls.map String.toList

/-! ## Well-formedness: one ill-formed term for each check, and a well-formed one -/

/-- R85: STX has no Immediate form (W10). -/
theorem test_wf_illegal_mode : (Instr.stx (.immediate 5)).legal = false ∧ (Instr.stx (.immediate 5)).wf = false := by
  decide

/-- R69: Relative is for the ten control transfers only. -/
theorem test_wf_relative_without_transfer : (Instr.lda .relative).spelled = false ∧ (Instr.lda .relative).wf = false := by
  decide

/-- R73: a label name is trimmed. -/
theorem test_wf_untrimmed_label : (Instr.label [' ', 'l']).wf = false ∧ (Instr.label ['l', ' ']).wf = false := by decide

/-- R61: a label name is ASCII. -/
theorem test_wf_label_not_ascii : (Instr.label ['é']).wf = false := by decide

/-- A name a control transfer cannot spell: empty (R65), beginning as a numeric form (R69), ending in a colon (R62),
untrimmed (R75). -/
theorem test_wf_unspellable_reference :
    [[], ['#'], ['$', 'a'], ['(', 'a'], ['a', ':'], ['a', ' ']].all (fun l => !(Instr.jmp .relative l).wf) = true := by
  decide

/-- R85 and W3: JMP and the branches are Relative only. -/
theorem test_wf_transfer_needs_relative : (Instr.jmp (.absolute 0x1234) ['l']).wf = false ∧
    (Instr.beq (.immediate 5) ['l']).wf = false ∧ (Instr.jsr .implied []).wf = false := by decide

theorem test_wf_good : (Instr.stx (.indirectY 0x40)).wf = true ∧ (Instr.bne .relative ['m', ' ', 'l']).wf = true ∧
    (Instr.label []).wf = true ∧ (Instr.adc .implied).wf = true := by decide

/-! ## Decoding: every mnemonic, and every operand form -/

/-- The instructions without an operand, each a line of R85's Implied row. -/
theorem test_decode_implied :
    (["ASL", "LSR", "ROL", "ROR", "TXS", "TSX", "PHA", "PLA", "RTS", "RTI"].map fun l => decode l.toList) =
      [.asl .implied, .lsr .implied, .rol .implied, .ror .implied, .txs .implied, .tsx .implied, .pha .implied,
        .pla .implied, .rts .implied, .rti .implied].map .ok ∧
    (["TAX", "TXA", "DEX", "INX", "TAY", "TYA", "DEY", "INY", "NOP", "BRK", "DRW"].map fun l => decode l.toList) =
      [.tax .implied, .txa .implied, .dex .implied, .inx .implied, .tay .implied, .tya .implied, .dey .implied,
        .iny .implied, .nop .implied, .brk .implied, .drw .implied].map .ok ∧
    (["CLC", "SEC", "CLI", "SEI", "CLV", "CLD", "SED"].map fun l => decode l.toList) =
      [.clc .implied, .sec .implied, .cli .implied, .sei .implied, .clv .implied, .cld .implied, .sed .implied].map .ok := by
  decide

/-- The ten control transfers, with the raw label text (R75). -/
theorem test_decode_transfers :
    (["JMP l", "JSR l", "BPL l", "BMI l", "BVC l", "BVS l", "BCC l", "BCS l", "BNE l", "BEQ  my l"].map
      fun l => decode l.toList) =
    [.jmp .relative ['l'], .jsr .relative ['l'], .bpl .relative ['l'], .bmi .relative ['l'], .bvc .relative ['l'],
      .bvs .relative ['l'], .bcc .relative ['l'], .bcs .relative ['l'], .bne .relative ['l'],
      .beq .relative ['m', 'y', ' ', 'l']].map .ok := by decide

/-- The instructions with an operand, one form of R64 each. -/
theorem test_decode_operands :
    (["ADC #$05", "SBC $10", "AND $12,X", "ORA $12,Y", "EOR $1234", "BIT $0010", "CMP $1234,X", "CPX #$ff", "CPY $Ff"].map
      fun l => decode l.toList) =
    [.adc (.immediate 0x05), .sbc (.zeroPage 0x10), .and (.zeroPageX 0x12), .ora (.zeroPageY 0x12),
      .eor (.absolute 0x1234), .bit (.absolute 0x0010), .cmp (.absoluteX 0x1234), .cpx (.immediate 0xFF),
      .cpy (.zeroPage 0xFF)].map .ok ∧
    (["LDA ($20,X)", "LDX ($20),Y", "LDY $1234,Y", "STA $ 12 , X", "STX $1000,X", "STY $F0,Y", "INC $10", "DEC $ABCD"].map
      fun l => decode l.toList) =
    [.lda (.indirectX 0x20), .ldx (.indirectY 0x20), .ldy (.absoluteY 0x1234), .sta (.zeroPageX 0x12),
      .stx (.absoluteX 0x1000), .sty (.zeroPageY 0xF0), .inc (.zeroPage 0x10), .dec (.absolute 0xABCD)].map .ok := by
  decide

/-- Label lines: V-LX37, V-LX38 and V-LX39. -/
theorem test_decode_labels : decode "loop:".toList = .ok (.label "loop".toList) ∧
    decode "BNE loop:".toList = .ok (.label "BNE loop".toList) ∧ decode [':'] = .ok (.label []) := by decide

/-- Lines that decode but do not verify, or have no meaning when run: V-LX23, V-LX30, V-LX33, V-LX36, V-LX41. -/
theorem test_decode_odd : decode "LDA#$05".toList = .ok (.lda (.immediate 5)) ∧
    decode "ADC".toList = .ok (.adc .implied) ∧
    decode "JMP $1234".toList = .ok (.jmp (.absolute 0x1234) "$1234".toList) ∧
    decode "BEQ #$05".toList = .ok (.beq (.immediate 5) "#$05".toList) ∧
    decode "DRW $10".toList = .ok (.drw (.zeroPage 0x10)) := by decide

/-- Malformed operands: V-LX2, 3, 13, 16, 17, 20, 21, 29, 34, 35. -/
theorem test_decode_malformed :
    ["LDA #$5", "LDA #05", "LDA $123", "LDA $1234,Z", "LDA $1234X", "LDA (20,X)", "LDA ($20,Y)", "INXX", "JMP (loop)",
      "LDA loop"].all (fun l => decide (decode l.toList = .error .malformedOperand)) = true := by decide

/-- Bad hex, unknown mnemonics and a non-ASCII character: V-LX4, 11, 12, 24 to 27. -/
theorem test_decode_refused :
    (["LDA #$0G", "LDA $12,Z", "LDA $12,x", "lda #$05", "LD", "PHP", "LDA é"].map fun l => decode l.toList) =
    [.badHex, .badHex, .badHex, .unknownMnemonic, .unknownMnemonic, .unknownMnemonic, .nonAscii].map .error := by decide

/-- Words of the opcode table: the three characters, the first in bits 23 to 16; further 24-bit words are the rest of
the line (log entry 4). 0x414443 is "ADC", 0x4C4441 "LDA", 0x232430 "#$0", 0x350000 "5". -/
theorem test_decode_table_word : decodeTableWord 24 0x414443 = some (.adc .implied) ∧
    decodeTableWord 24 0x4E4F50 = some (.nop .implied) ∧
    decodeTableWord 72 0x3500002324304C4441 = some (.lda (.immediate 5)) ∧
    decodeTableWord 24 0x504850 = none := by decide

/-- The first step after a table word is placed runs it. -/
theorem test_fetch_word : ∃ t, step (State.reset.withFetchWord 24 0x494E58) = .next t ∧ t.x = 1 ∧ t.pc = 1 :=
  ⟨_, rfl, rfl, rfl⟩

/-- The record of `LDA #$3C`, W1, and of `BNE loop`, V-LX31, with the ordinals of R77 and R78. -/
theorem test_record : (Instr.lda (.immediate 0x3C)).record = ⟨30, 0, 0x003C, []⟩ ∧
    (Instr.bne .relative "loop".toList).record = ⟨8, 9, 0xFFFF, "loop".toList⟩ := by decide

/-- R60: a line is cut at its comment and trimmed, and empty lines are dropped. -/
theorem test_deliver : deliverLines (text [" LDA #$05 ; five", "; all", "", "loop: "]) = text ["LDA #$05", "loop:"] := by
  decide

/-! ## Loading (95_test_vectors.md 2.2) -/

theorem test_assemble_errors : assemble (text ["STX #$05"]) = .error ⟨.illegalMode, 0⟩ ∧
    assemble (text ["l:", "l:"]) = .error ⟨.duplicateLabel, 1⟩ ∧
    assemble (text ["LDA #$1", "l:", "l:"]) = .error ⟨.decodeError .malformedOperand, 0⟩ ∧
    assemble (text ["INX", "RTS $10"]) = .error ⟨.illegalMode, 1⟩ ∧
    assemble (text ["INC"]) = .error ⟨.illegalMode, 0⟩ := ⟨rfl, rfl, rfl, rfl, rfl⟩

theorem test_assemble_label : assemble (text ["JMP l", "l:"]) = .ok ([.jmp .relative ['l'], .label ['l']], [(['l'], 2)]) := by
  decide

/-! ## Effective addresses (95_test_vectors.md 2.3) -/

theorem test_ea_zero_page_wraps : (after "LDA $F0,X" fun s => { s with x := 0x20 }.writeByte 0x10 0x99).map State.a =
    some 0x99 := by decide

theorem test_ea_absolute_wraps : (after "LDA $FFF0,X" fun s => { s with x := 0x20 }.writeByte 0x10 0x77).map State.a =
    some 0x77 := by decide

theorem test_ea_pointer_wraps : (after "LDA ($FF,X)" fun s =>
    ((s.writeByte 0xFF 0x34).writeByte 0x00 0x12).writeByte 0x1234 0x66).map State.a = some 0x66 := by decide

theorem test_ea_indirect_y_wraps : (after "LDA ($40),Y" fun s =>
    (({ s with y := 0x20 }.writeByte 0x40 0xF0).writeByte 0x41 0xFF).writeByte 0x10 0x11).map State.a = some 0x11 := by
  decide

/-! ## Arithmetic and logic (2.4, 2.5) -/

theorem test_adc_overflow : (after "ADC #$01" fun s => { s with a := 0x7F }).map (fun t => (t.a, t.flags)) =
    some (0x80, flags "VN") := by decide

theorem test_adc_ignores_carry : (after "ADC #$01" fun s => { s with a := 0x01, flags := flags "C" }).map
    (fun t => (t.a, t.flags)) = some (0x02, flags "") := by decide

theorem test_sbc_borrow : (after "SBC #$05" fun s => { s with a := 0x03 }).map (fun t => (t.a, t.flags)) =
    some (0xFE, flags "N") := by decide

theorem test_sbc_overflow : (after "SBC #$FF" fun s => { s with a := 0x7F }).map (fun t => (t.a, t.flags)) =
    some (0x80, flags "VN") := by decide

theorem test_adc_decimal_faults_first : (after "ADC" fun s => { s with flags := flags "D" }).map State.status =
    some (.faulted .decimalUnsupported 0) := by decide

theorem test_and : (after "AND #$3C" fun s => { s with a := 0xF0 }).map (fun t => (t.a, t.flags)) =
    some (0x30, flags "") := by decide

theorem test_ora : (after "ORA #$01" fun s => { s with a := 0x80 }).map (fun t => (t.a, t.flags)) =
    some (0x81, flags "N") := by decide

theorem test_eor : (after "EOR #$FF" fun s => { s with a := 0xFF }).map (fun t => (t.a, t.flags)) =
    some (0x00, flags "Z") := by decide

theorem test_bit : (after "BIT $10" fun s => { s with a := 0x01 }.writeByte 0x10 0xC0).map (fun t => (t.a, t.flags)) =
    some (0x01, flags "ZNV") := by decide

/-! ## Shifts, compares, increments and decrements (2.6 to 2.8) -/

theorem test_asl : (after "ASL" fun s => { s with a := 0x80 }).map (fun t => (t.a, t.flags)) =
    some (0x00, flags "CZ") := by decide

theorem test_asl_memory : (after "ASL $F0,X" fun s => { s with x := 0x20 }.writeByte 0x10 0x41).map
    (fun t => (t.a, t.readByte 0x10, t.flags)) = some (0x00, 0x82, flags "N") := by decide

theorem test_lsr : (after "LSR" fun s => { s with a := 0x01 }).map (fun t => (t.a, t.flags)) =
    some (0x00, flags "CZ") := by decide

theorem test_lsr_memory : (after "LSR $10" fun s => s.writeByte 0x10 0x02).map
    (fun t => (t.readByte 0x10, t.flags)) = some (0x01, flags "") := by decide

theorem test_rol : (after "ROL" fun s => { s with a := 0x40, flags := flags "C" }).map (fun t => (t.a, t.flags)) =
    some (0x81, flags "N") := by decide

theorem test_ror : (after "ROR" fun s => { s with a := 0x01, flags := flags "C" }).map (fun t => (t.a, t.flags)) =
    some (0x80, flags "CN") := by decide

theorem test_cmp_less_keeps_flags : (after "CMP #$05" fun s => { s with a := 3, flags := flags "CZN" }).map State.flags =
    some (flags "CZ") := by decide

theorem test_cmp_equal_keeps_n : (after "CMP #$05" fun s => { s with a := 5, flags := flags "N" }).map State.flags =
    some (flags "CZN") := by decide

theorem test_cpx_equal : (after "CPX $10" id).map State.flags = some (flags "CZ") := by decide

theorem test_cpy_greater : (after "CPY #$00" fun s => { s with y := 0xFF }).map State.flags = some (flags "CN") := by
  decide

theorem test_inc : (after "INC $10" fun s => s.writeByte 0x10 0xFF).map (fun t => (t.readByte 0x10, t.flags)) =
    some (0x00, flags "Z") := by decide

theorem test_dec : (after "DEC $10" id).map (fun t => (t.readByte 0x10, t.flags)) = some (0xFF, flags "N") := by decide

theorem test_inx : (after "INX" fun s => { s with x := 0xFF }).map (fun t => (t.x, t.flags)) =
    some (0x00, flags "Z") := by decide

theorem test_dex : (after "DEX" id).map (fun t => (t.x, t.flags)) = some (0xFF, flags "N") := by decide

theorem test_iny : (after "INY" fun s => { s with y := 0x7F }).map (fun t => (t.y, t.flags)) =
    some (0x80, flags "N") := by decide

theorem test_dey : (after "DEY" fun s => { s with y := 0x01 }).map (fun t => (t.y, t.flags)) =
    some (0x00, flags "Z") := by decide

/-! ## Loads, stores, transfers and the data stack (2.9, 2.10) -/

theorem test_lda_zero : (after "LDA #$00" fun s => { s with a := 5 }).map (fun t => (t.a, t.flags)) =
    some (0x00, flags "Z") := by decide

theorem test_lda_missing : (after "LDA" id).map State.status = some (.faulted .operandMissing 0) := by decide

theorem test_ldx : (after "LDX $10,Y" fun s => { s with y := 1 }.writeByte 0x11 0x22).map (fun t => (t.x, t.flags)) =
    some (0x22, flags "") := by decide

/-- R202: a Y-indexed load uses the old Y. -/
theorem test_ldy_old_y : (after "LDY $10,Y" fun s => { s with y := 1 }.writeByte 0x11 0x80).map (fun t => (t.y, t.flags)) =
    some (0x80, flags "N") := by decide

theorem test_sta : (after "STA $10" fun s => { s with a := 5 }).map (fun t => (t.readByte 0x10, t.flags)) =
    some (5, flags "") := by decide

theorem test_sta_no_target : (after "STA #$05" id).map State.status = some (.faulted .noStoreTarget 0) := by decide

theorem test_stx : (after "STX $1000,X" fun s => { s with x := 0x10 }).map (fun t => t.readByte 0x1010) =
    some 0x10 := by decide

theorem test_stx_indirect : (after "STX ($40),Y" fun s => { s with x := 0x33, y := 2 }.writeByte 0x41 0x20).map
    (fun t => t.readByte 0x2002) = some 0x33 := by decide

theorem test_sty : (after "STY $F0,Y" fun s => { s with y := 0x20 }).map (fun t => t.readByte 0x10) = some 0x20 := by
  decide

theorem test_tax : (after "TAX" fun s => { s with a := 0x80 }).map (fun t => (t.x, t.a, t.flags)) =
    some (0x80, 0x80, flags "N") := by decide

theorem test_txa : (after "TXA" fun s => { s with a := 7 }).map (fun t => (t.a, t.flags)) = some (0, flags "Z") := by
  decide

theorem test_tay : (after "TAY" fun s => { s with a := 0x7F }).map (fun t => (t.y, t.flags)) =
    some (0x7F, flags "") := by decide

theorem test_tya : (after "TYA" fun s => { s with y := 0xFF }).map (fun t => (t.a, t.flags)) =
    some (0xFF, flags "N") := by decide

theorem test_tsx : (after "TSX" id).map (fun t => (t.x, t.flags)) = some (0xFF, flags "N") := by decide

theorem test_txs : (after "TXS" fun s => { s with x := 0x10, flags := flags "Z" }).map (fun t => (t.sp16, t.flags)) =
    some (0x0110, flags "Z") := by decide

theorem test_pha : (after "PHA" fun s => { s with a := 0x42 }).map (fun t => (t.readByte 0x01FF, t.sp16)) =
    some (0x42, 0x01FE) := by decide

theorem test_pha_full : (after "PHA" fun s => { s with sp16 := 0x00FF }).map (fun t => (t.status, t.sp16)) =
    some (.faulted .stackOverflow 0, 0x00FF) := by decide

theorem test_pla : (after "PLA" fun s => { s with sp16 := 0x01FE }.writeByte 0x01FF 0x42).map
    (fun t => (t.a, t.sp16, t.flags)) = some (0x42, 0x01FF, flags "") := by decide

theorem test_pla_empty : (after "PLA" id).map State.status = some (.faulted .stackUnderflow 0) := by decide

/-! ## Control transfer (2.11): taken and not taken -/

theorem test_bcc : (after "BCC l" (atTwo "")).map State.pc = some 6 ∧ (after "BCC l" (atTwo "C")).map State.pc = some 3 := by
  decide

theorem test_bcs : (after "BCS l" (atTwo "C")).map State.pc = some 6 ∧ (after "BCS l" (atTwo "")).map State.pc = some 3 := by
  decide

theorem test_beq : (after "BEQ l" (atTwo "Z")).map State.pc = some 6 ∧ (after "BEQ l" (atTwo "")).map State.pc = some 3 := by
  decide

theorem test_bne : (after "BNE l" (atTwo "")).map State.pc = some 6 ∧ (after "BNE l" (atTwo "Z")).map State.pc = some 3 := by
  decide

theorem test_bmi : (after "BMI l" (atTwo "N")).map State.pc = some 6 ∧ (after "BMI l" (atTwo "")).map State.pc = some 3 := by
  decide

theorem test_bpl : (after "BPL l" (atTwo "")).map State.pc = some 6 ∧ (after "BPL l" (atTwo "N")).map State.pc = some 3 := by
  decide

theorem test_bvc : (after "BVC l" (atTwo "")).map State.pc = some 6 ∧ (after "BVC l" (atTwo "V")).map State.pc = some 3 := by
  decide

theorem test_bvs : (after "BVS l" (atTwo "V")).map State.pc = some 6 ∧ (after "BVS l" (atTwo "")).map State.pc = some 3 := by
  decide

theorem test_branch_unresolved : (after "BNE nowhere" (atTwo "Z")).map State.status =
    some (.faulted .unresolvedLabel 2) := by decide

theorem test_jmp : (after "JMP l" (atTwo "")).map (fun t => (t.pc, t.callStack)) = some (6, []) := by decide

/-- V-CT2, on a call stack that is not of capacity 0. -/
theorem test_jsr (h : Config.callStackDepth ≠ some 0) (i : Instr) : ∃ t,
    exec (.jsr .relative ['l']) (atTwo "" (one i)) = .next t ∧ t.callStack = [2] ∧ t.pc = 6 := by
  have hf : (atTwo "" (one i)).callStackFull = false := by
    simp [State.callStackFull, atTwo, one, State.resetWith, h]
  refine ⟨_, exec_jsr _ _ _, ?_⟩
  rw [hf, show lookupLabel (atTwo "" (one i)).labels ['l'] = some 6 by rfl]
  exact ⟨rfl, rfl⟩

theorem test_jsr_unresolved : (after "JSR nowhere" (atTwo "")).map State.status =
    some (.faulted .unresolvedLabel 2) := by decide

theorem test_rts : (after "RTS" fun s => { s with callStack := [2] }).map (fun t => (t.pc, t.callStack)) =
    some (3, []) := by decide

theorem test_rts_empty : (after "RTS" id).map State.status = some (.faulted .callStackEmpty 0) := by decide

theorem test_rti : (after "RTI" (atTwo "")).map (fun t => (t.status, t.pc)) = some (.faulted .rtiUnsupported 2, 2) := by
  decide

/-! ## Flag and system instructions (2.12) -/

theorem test_clear_flags : (after "CLC" (atTwo "CZIDVN")).map State.flags = some (flags "ZIDVN") ∧
    (after "CLI" (atTwo "CZIDVN")).map State.flags = some (flags "CZDVN") ∧
    (after "CLV" (atTwo "CZIDVN")).map State.flags = some (flags "CZIDN") ∧
    (after "CLD" (atTwo "CZIDVN")).map State.flags = some (flags "CZIVN") := by decide

theorem test_set_flags : (after "SEC" id).map State.flags = some (flags "C") ∧
    (after "SEI" id).map State.flags = some (flags "I") ∧ (after "SED" id).map State.flags = some (flags "D") := by decide

theorem test_nop : (after "NOP" id).map (fun t => (t.pc, t.frame, t.status)) = some (1, false, .running) := by decide

theorem test_drw : (after "DRW" id).map (fun t => (t.pc, t.frame)) = some (1, true) := by decide

theorem test_brk : (after "BRK" (atTwo "")).map (fun t => (t.status, t.pc)) = some (.halted .brk, 2) := by decide

theorem test_label : (after "l:" id).map (fun t => (t.pc, t.status)) = some (1, .running) := by decide

/-- V-LS7: a store to the entropy cell is overwritten by the draw of the same step. -/
theorem test_entropy_overwrites : (after "STA $FE" fun s => { s with a := 0x42 }).map (fun t => t.readByte 0xFE) =
    some (Config.entropy 0) := rfl

/-! ## Witnesses: a state and operands that meet the hypotheses of each statement

A statement is named by its witness; a statement with several clauses has a part for each. -/

/-- Memory with bytes at both ends of the address space, and zero bytes elsewhere. -/
def someMemory : Memory := ⟨[(0, 1), (0xFFFF, 2)], 3, 4⟩

/-- A running state with that memory. -/
def busy (i : Instr) : State := { one i with mem := someMemory, labels := [(['l'], 0)] }

theorem witness_DecodeInvertsEncode :
    ([Instr.label ['l', ' ', 'm'], .jmp .relative [','], .lda .implied] ++
      [Operand.immediate 0, .zeroPage 0xFF, .zeroPageX 0x9A, .zeroPageY 0xA9, .absolute 0xFFFF, .absoluteX 0, .absoluteY 0xA09F,
        .indirectX 0xFF, .indirectY 0].map Instr.sta).all Instr.wf = true := by decide

theorem witness_DeliveredLinesAreTrimmedAndCut : " l ".toList ∈ [" l ".toList, " ; x".toList] ∧ ';' ∉ " l ".toList ∧
    "l".toList ∈ deliverLines [" l ;;".toList] := by decide

theorem witness_VerifiedLinesAreWellFormed : delivered "JMP l m".toList = true ∧
    decode "JMP l m".toList = .ok (.jmp .relative "l m".toList) ∧ (Instr.jmp .relative "l m".toList).legal = true := by
  decide

theorem witness_ImmediateOperandsDecode : hexDigit '0' = some 0 ∧ hexDigit '9' = some 9 ∧ hexDigit 'A' = some 10 ∧
    hexDigit 'f' = some 15 ∧ Opcode.jmp ≠ .label ∧ (hexDigit 'G' = none ∨ hexDigit '0' = none) ∧
    (hexDigit '0' = none ∨ hexDigit 'G' = none) ∧ ∀ h l, (['$', '5'] : Text) ≠ ['$', h, l] := by
  refine ⟨by decide, by decide, by decide, by decide, by decide, by decide, by decide, fun h l e => ?_⟩
  simp at e

/-- Digits of both letter cases; a text with a sign; two digits for the first form of R64, four for `$hhhh,X`. -/
theorem witness_HexTextHasItsBaseSixteenValue : "0Af9".toList ≠ [] ∧
    "0Af9".toList.map hexDigit = [0, 10, 15, 9].map some ∧ (∃ c ∈ "+1".toList, hexDigit c = none) ∧
    ∀ f ∈ numericForms, f.digits = 2 ∧ "Ff".toList.map hexDigit = [15, 15].map some ∨
      f.digits = 4 ∧ "0Af9".toList.map hexDigit = [0, 10, 15, 9].map some :=
  ⟨by decide, by decide, ⟨'+', by decide, by decide⟩, by simp [numericForms]; decide⟩

theorem ascii {t : Text} (h : t.all isAscii = true) : ∀ c ∈ t, c.toNat < 0x80 := by simpa [isAscii] using h

theorem witness_LabelLinesAreRecognisedFirst : ∀ c ∈ "BNE l ".toList, c.toNat < 0x80 := ascii (by decide)

theorem witness_UnreadableLinesAreRefused : (∃ c ∈ "LDA é".toList, 0x80 ≤ c.toNat) ∧
    ("LD".toList ≠ [] ∧ (∀ c ∈ "LD".toList, c.toNat < 0x80) ∧ "LD".toList.getLast? ≠ some ':' ∧ "LD".toList.length < 3) ∧
    ((∀ c ∈ "lda #$05".toList, c.toNat < 0x80) ∧ "lda #$05".toList.getLast? ≠ some ':' ∧
      ∀ op : Opcode, op = .label ∨ op.chars ≠ "lda #$05".toList.take 3) ∧
    ((∀ c ∈ " $ 12 , Z".toList, c.toNat < 0x80) ∧ " $ 12 , Z".toList.getLast? ≠ some ':' ∧
      classify Opcode.lda.isTransfer (stripWs " $ 12 , Z".toList) = .error .badHex) :=
  ⟨⟨'é', by decide, by decide⟩, ⟨by decide, ascii (by decide), by decide, by decide⟩,
    ⟨ascii (by decide), by decide, fun op => by cases op <;> decide⟩, ascii (by decide), by decide, by decide⟩

/-- The shapes: `$` alone is of no form, `($20,Y)` neither; `12,Z` stands in the digits' places of `$hhhh`, `1G` in those
of every form with two; `X` begins as no numeric form. -/
theorem witness_UnreadableLinesAreRefused_shapes :
    (∀ f ∈ numericForms, ∀ ds : Text, ds.length = f.digits → ['$'] ≠ f.lead ++ ds ++ f.tail) ∧
    (∀ f ∈ numericForms, ∀ ds : Text, ds.length = f.digits → "($20,Y)".toList ≠ f.lead ++ ds ++ f.tail) ∧
    ("12,Z".toList.length = 4 ∧ (∃ c ∈ "12,Z".toList, hexDigit c = none) ∧ "12,Z".toList.drop 2 ≠ [',', 'X'] ∧
      "12,Z".toList.drop 2 ≠ [',', 'Y']) ∧
    ("1G".toList.length = 2 ∧ (∃ c ∈ "1G".toList, hexDigit c = none)) ∧ 'X' ∉ ['#', '$', '('] := by
  refine ⟨fun f hf ds hd e => ?_, fun f hf ds hd e => ?_,
    ⟨by decide, ⟨',', by decide, by decide⟩, by decide, by decide⟩, ⟨by decide, 'G', by decide, by decide⟩, by decide⟩
  all_goals
    have el := congrArg List.length e
    simp only [numericForms, List.mem_cons, List.not_mem_nil, or_false] at hf
    rcases hf with rfl | rfl | rfl | rfl | rfl | rfl | rfl | rfl | rfl <;> simp at hd el e <;> try omega
  all_goals
    match ds, hd with
    | [_, _], _ => simp at e

theorem decodesTo_jmp : decodesTo (text ["l:", "JMP l"]) [.label ['l'], .jmp .relative ['l']] := by
  refine ⟨rfl, fun k line h => ?_⟩
  match k, h with
  | 0, h => cases h; exact ⟨_, rfl, by decide⟩
  | 1, h => cases h; exact ⟨_, rfl, by decide⟩
  | k + 2, h => simp [text] at h

theorem decodesTo_two_labels : decodesTo (text ["l:", "l:"]) [.label ['l'], .label ['l']] := by
  refine ⟨rfl, fun k line h => ?_⟩
  match k, h with
  | 0, h => cases h; exact ⟨_, rfl, by decide⟩
  | 1, h => cases h; exact ⟨_, rfl, by decide⟩
  | k + 2, h => simp [text] at h

theorem decodesTo_stx : decodesTo (text ["STX #$05"]) [.stx (.immediate 5)] := by
  refine ⟨rfl, fun k line h => ?_⟩
  match k, h with
  | 0, h => cases h; exact ⟨_, rfl, by decide⟩
  | k + 1, h => simp [text] at h

theorem witness_LoadStagesAndErrors :
    ((text ["INX", "LD"])[1]? = some "LD".toList ∧ decode "LD".toList = .error .unknownMnemonic ∧
      ∀ j < 1, ∀ l, (text ["INX", "LD"])[j]? = some l → ∃ i, decode l = .ok i) ∧
    (decodesTo (text ["l:", "l:"]) [.label ['l'], .label ['l']] ∧ labelsDistinctBelow 1 [.label ['l'], .label ['l']]) ∧
    (decodesTo (text ["STX #$05"]) [.stx (.immediate 5)] ∧ labelsDistinctBelow 1 [.stx (.immediate 5)] ∧
      (Instr.stx (.immediate 5)).legal = false) ∧
    (decodesTo (text ["l:", "JMP l"]) [.label ['l'], .jmp .relative ['l']] ∧
      labelsDistinctBelow 2 [.label ['l'], .jmp .relative ['l']] ∧
      ∀ i ∈ [Instr.label ['l'], .jmp .relative ['l']], i.legal = true) := by
  refine ⟨⟨by decide, by decide, fun j hj l h => ?_⟩, ⟨decodesTo_two_labels, fun i j _ h1 h2 => by omega⟩,
    ⟨decodesTo_stx, fun i j _ h1 h2 => by omega, by decide⟩, decodesTo_jmp, fun i j name h1 h2 hi hj => ?_, by decide⟩
  · obtain rfl : j = 0 := by omega
    cases h
    exact ⟨.inx .implied, by decide⟩
  · obtain rfl : j = 1 := by omega
    cases hj

theorem witness_assembled :
    assemble (text ["l:", "JMP l"]) = .ok ([.label ['l'], .jmp .relative ['l']], [(['l'], 1)]) := by decide

theorem witness_LoadedProgramsAreVerified : ∃ s, load [] = .ok s := by
  simp only [load, assemble, decodeLines, labelTable, scanLabels, verifyFrom, checkCapacity]
  cases Config.imemDepth <;> simp

theorem witness_LabelsStandForTheNextIndex : ∃ p lt, assemble (text ["l:", "JMP l"]) = .ok (p, lt) :=
  ⟨_, _, witness_assembled⟩

theorem witness_LoadedStatesMeetInvariant : ∃ p lt, assemble (text ["l:", "JMP l"]) = .ok (p, lt) :=
  ⟨_, _, witness_assembled⟩

theorem witness_ResetValues : (0x00FF#16) ≠ 0x00FE#16 ∧ (0x0000#16) ≠ 0x00FE#16 ∧ (0xFFFF#16) ≠ 0x00FE#16 := by decide

theorem witness_ReadsSeeTheLastWrite : (busy (.nop .implied)).mem.wf = true := by decide

theorem witness_CanonicalMemoryIsUnique : someMemory.wf = true ∧ ∀ a, someMemory.read a = someMemory.read a :=
  ⟨by decide, fun _ => rfl⟩

theorem witness_OperandsAreReadAndTargeted : (busy (.nop .implied)).ea (.zeroPage 0xFF) = some 0x00FF#16 ∧
    (busy (.nop .implied)).ea (.immediate 5) = none ∧ Operand.immediate 5 ≠ .implied := by decide

theorem witness_StepRunsTheFetchedInstruction :
    ((one (.inx .implied)).status = .running ∧ (one (.inx .implied)).program[0]? = some (.inx .implied) ∧
      ∃ t, exec (.inx .implied) { one (.inx .implied) with frame := false } = .next t) ∧
    (∃ p, decodesTo (text ["l:", "JMP l"]) p ∧ (text ["l:", "JMP l"])[1]? = some "JMP l".toList ∧
      decode "JMP l".toList = .ok (.jmp .relative ['l'])) ∧
    decodeTableWord 24 0x494E58 = some (.inx .implied) :=
  ⟨⟨rfl, rfl, _, rfl⟩, ⟨_, decodesTo_jmp, by decide, by decide⟩, by decide⟩

theorem witness_FetchAtTheEndHalts : State.reset.status = .running ∧ State.reset.program.length ≤ State.reset.pc := by
  decide

theorem witness_PostInstructionPhase : (∃ u, exec (.nop .implied) (one (.nop .implied)) = .next u ∧
      ∀ code k, u.status ≠ .faulted code k) ∧
    ∃ u, exec (.rti .implied) (one (.rti .implied)) = .next u ∧ ∃ code k, u.status = .faulted code k :=
  ⟨⟨_, rfl, fun _ _ => nofun⟩, _, rfl, _, _, rfl⟩

theorem witness_FaultsArePrecise : ∃ t, step (busy (.pla .implied)) = .next t ∧
    t.status = .faulted .stackUnderflow 0 := ⟨_, rfl, rfl⟩

/-- The instruction is well-formed and raises the fault. -/
def raises (i : Instr) (s : State) (c : FaultCode) : Prop :=
  i.wf = true ∧ s.status = .running ∧ exec i s = .next (s.faultedWith c)

/-- Each fault of R250 that a capacity does not decide, raised by a well-formed instruction. -/
theorem witness_FaultsAreRaisedExactlyAsTabled :
    raises (.jmp .relative ['m']) (busy (.nop .implied)) .unresolvedLabel ∧
    raises (.pha .implied) { busy (.nop .implied) with sp16 := 0x00FF#16 } .stackOverflow ∧
    raises (.pla .implied) (busy (.nop .implied)) .stackUnderflow ∧
    raises (.rts .implied) (busy (.nop .implied)) .callStackEmpty ∧
    raises (.adc .implied) (busy (.nop .implied)) .operandMissing ∧
    raises (.sta (.immediate 0)) (busy (.nop .implied)) .noStoreTarget ∧
    raises (.rti .implied) (busy (.nop .implied)) .rtiUnsupported ∧
    raises (.sbc .implied) { busy (.nop .implied) with flags := flags "D" } .decimalUnsupported :=
  ⟨⟨by decide, rfl, rfl⟩, ⟨by decide, rfl, rfl⟩, ⟨by decide, rfl, rfl⟩, ⟨by decide, rfl, rfl⟩, ⟨by decide, rfl, rfl⟩,
    ⟨by decide, rfl, rfl⟩, ⟨by decide, rfl, rfl⟩, by decide, rfl, rfl⟩

theorem witness_OnlyBrkAndTheEndHalt : (∃ t, step (one (.brk .implied)) = .next t ∧ t.status = .halted .brk) ∧
    ∃ t, step State.reset = .next t ∧ t.status = .halted .endOfProgram := ⟨⟨_, rfl, rfl⟩, _, rfl, rfl⟩

/-- A state in the middle of a run: an assembled program, one call open, memory written. -/
def running : State :=
  { State.resetWith [.label ['l'], .jsr .relative ['l'], .pha .implied, .pla .implied] [(['l'], 1)] with
    mem := someMemory, pc := 2, sp16 := 0x0100#16 }

theorem running_inv : Inv running :=
  ⟨by decide, by decide, by decide, by decide, rfl, by simp [running, State.resetWith],
    by simp [running, State.resetWith]⟩

theorem witness_StepKeepsInvariant : Inv running ∧ ∃ t, step running = .next t := ⟨running_inv, _, rfl⟩

theorem witness_ProgramStoreNeverChanges : ∃ t, step running = .next t := ⟨_, rfl⟩

/-- For each clause an instruction that changes what the clause is about. -/
theorem witness_OnlyTheNamedInstructionsWrite :
    (∃ t, exec (.lda (.immediate 5)) running = .next t ∧ t.a ≠ running.a) ∧
    (∃ t, exec (.dex .implied) running = .next t ∧ t.x ≠ running.x ∧ t.flags.n ≠ running.flags.n) ∧
    (∃ t, exec (.iny .implied) running = .next t ∧ t.y ≠ running.y) ∧
    (∃ t, exec (.pha .implied) running = .next t ∧ t.sp16 ≠ running.sp16) ∧
    (∃ t, exec (.rts .implied) { running with callStack := [1] } = .next t ∧ t.callStack ≠ [1]) ∧
    (∃ t, exec (.cmp (.immediate 0)) running = .next t ∧ t.flags.c ≠ running.flags.c ∧ t.flags.z ≠ running.flags.z) ∧
    (∃ t, exec (.sei .implied) running = .next t ∧ t.flags.i ≠ running.flags.i) ∧
    (∃ t, exec (.sed .implied) running = .next t ∧ t.flags.d ≠ running.flags.d) ∧
    (∃ t, exec (.sbc (.immediate 0x80)) running = .next t ∧ t.flags.v ≠ running.flags.v) := by
  refine ⟨⟨_, rfl, ?_⟩, ⟨_, rfl, ?_⟩, ⟨_, rfl, ?_⟩, ⟨_, rfl, ?_⟩, ⟨_, rfl, ?_⟩, ⟨_, rfl, ?_⟩, ⟨_, rfl, ?_⟩, ⟨_, rfl, ?_⟩,
    _, rfl, ?_⟩ <;> decide

theorem witness_OnlyTheNamedByteIsStored :
    (∃ t, exec (.inc (.absolute 0xFFFF)) running = .next t ∧ t.readByte 0xFFFF ≠ running.readByte 0xFFFF) ∧
    ∃ t, exec (.pha .implied) { running with a := 9 } = .next t ∧ t.readByte 0x0100 ≠ running.readByte 0x0100 := by
  refine ⟨⟨_, rfl, ?_⟩, _, rfl, ?_⟩ <;> decide

theorem witness_IndexAdvancesUnlessRedirected : ∃ t, exec (.pha .implied) running = .next t ∧ running.status = .running ∧
    t.status = .running ∧ (Instr.pha .implied).opcode.isTransfer = false := ⟨_, rfl, rfl, rfl, rfl⟩

theorem witness_FrameIndicationIsWrittenByDrwAndReadByNone : ∃ t, step (one (.drw .implied)) = .next t ∧ t.frame = true :=
  ⟨_, rfl, rfl⟩

theorem witness_InterruptDisableMasksNothing : ∃ t, step running = .next t := ⟨_, rfl⟩

theorem witness_DrawsReachOnlyThePlatformCells : ∃ t, step running = .next t := ⟨_, rfl⟩

/-- ADC and SBC: a readable operand and none, with D clear and set. -/
theorem witness_AdcResult : running.flags.d = false ∧ readable (.immediate 0x80) = true ∧ readable .implied = false ∧
    { running with flags := flags "D" }.flags.d = true := by decide

theorem witness_SbcResult : running.flags.d = false ∧ readable (.indirectY 0xFF) = true ∧ readable .implied = false ∧
    { running with flags := flags "D" }.flags.d = true := by decide

/-- The clauses of the logic, BIT, compare and load statements. -/
theorem witness_LogicResults : readable (.zeroPage 0) = true ∧ readable .implied = false := by decide

theorem witness_BitResult : readable (.absolute 0xFFFF) = true ∧ readable .relative = false := by decide

theorem witness_CompareResults : readable (.immediate 0xFF) = true ∧ readable .implied = false := by decide

theorem witness_LoadResults : readable (.absoluteY 0xFFFF) = true ∧ readable .implied = false := by decide

theorem witness_ShiftsAndRotates : running.mem.wf = true ∧ inMemory (.zeroPageX 0xFF) = true ∧
    inMemory (.immediate 0) = false ∧ Operand.immediate 0 ≠ .implied := by decide

theorem witness_IncrementsOfAMemoryCell : running.mem.wf = true ∧ inMemory (.absoluteX 0xFFFF) = true ∧
    inMemory .implied = false := by decide

theorem witness_StoreResults : running.mem.wf = true ∧ running.ea (.absolute 0xFFFF) = some 0xFFFF#16 ∧
    running.ea (.immediate 0) = none := by decide

/-- PHA at both ends of the stack it can push to, and when it is full. -/
theorem witness_PhaResult : running.mem.wf = true ∧ running.sp16 ≠ 0x00FF#16 ∧ State.reset.sp16 ≠ 0x00FF#16 ∧
    { running with sp16 := 0x00FF#16 }.sp16 = 0x00FF#16 := by decide

/-- PLA on a full stack, on a stack of one byte, and when it is empty. -/
theorem witness_PlaResult : { running with sp16 := 0x00FF#16 }.sp16 ≠ 0x01FF#16 ∧
    { running with sp16 := 0x01FE#16 }.sp16 ≠ 0x01FF#16 ∧ State.reset.sp16 = 0x01FF#16 := by decide

theorem witness_PushThenPullRestoresTheAccumulator : Inv running ∧ running.status = .running ∧
    running.sp16 ≠ 0x00FF#16 ∧ running.program[running.pc]? = some (.pha .implied) ∧
    running.program[running.pc + 1]? = some (.pla .implied) := ⟨running_inv, rfl, by decide, rfl, rfl⟩

theorem witness_JmpResult : lookupLabel running.labels ['l'] = some 1 ∧ lookupLabel running.labels [] = none := by
  decide

/-- A call stack of depth 0 or 1 has room, whatever the capacity is. -/
theorem witness_JsrResult : ∃ cs, { running with callStack := cs }.hasRoom ∧
    lookupLabel { running with callStack := cs }.labels ['l'] = some 1 := by
  by_cases h : Config.callStackDepth = some 0
  · exact ⟨[1], fun d hd => by rw [h] at hd; cases hd; simp, by decide⟩
  · exact ⟨[], fun d hd e => h (by rw [hd, ← e]; rfl), by decide⟩

theorem witness_RtsResult : { running with callStack := [1] }.callStack = 1 :: [] ∧ running.callStack = [] := ⟨rfl, rfl⟩

theorem witness_ReturnResumesAfterTheCall : ∃ (cs : List Nat) (t : State),
    { running with callStack := cs }.hasRoom ∧ exec (.jsr .relative ['l']) { running with callStack := cs } = .next t := by
  obtain ⟨cs, h, _⟩ := witness_JsrResult
  exact ⟨cs, _, h, exec_jsr _ _ _⟩

theorem witness_BranchResults : lookupLabel running.labels ['l'] = some 1 ∧ lookupLabel running.labels [] = none := by
  decide

theorem witness_UnresolvedLabelsFault : lookupLabel running.labels ['l'] = some 1 ∧
    lookupLabel running.labels ['m'] = none := by decide

theorem witness_NopLabelAndDrw : (Instr.nop .implied).opcode = .nop ∧ (Instr.label ['l']).opcode = .label ∧
    (one (.drw .implied)).status = .running ∧ (one (.drw .implied)).program[0]? = some (.drw .implied) := by decide

theorem witness_BrkHalts : (busy (.brk .implied)).status = .running ∧
    (busy (.brk .implied)).program[0]? = some (.brk .implied) := by decide

theorem witness_ScreenWindowIsMemory : 0 < 16384 ∧ 16383 < 16384 := by decide

theorem witness_FaultReportNamesTheRecord : (one (.jmp .relative ['m'])).program[0]? = some (.jmp .relative ['m']) ∧
    ∃ t, step (one (.jmp .relative ['m'])) = .next t ∧ t.status = .faulted .unresolvedLabel 0 := ⟨rfl, _, rfl, rfl⟩

end Sys2Proof.Tests
end

namespace Sys2Proof.Machine

/-! ## Reset: the values of R34 -/

/-- Where no cell is listed, every byte but the two platform cells is the one an unlisted address reads as. -/
theorem Memory.read_of_ram_nil {m : Memory} (h : m.ram = []) {b : Half} (he : b ≠ Config.entropyAddr)
    (hk : b ≠ Config.keyAddr) : m.read b = unlisted b.toNat := by
  simp [Memory.read, he, hk, h, readCells]

/-- The key cell reads as its field. -/
theorem Memory.read_keyAddr (m : Memory) : m.read Config.keyAddr = m.keyCell := by
  have h : Config.keyAddr ≠ Config.entropyAddr := by decide
  simp [Memory.read, h]

/-- Memory at reset (R34): every byte but the entropy cell is zero, the key cell among them. -/
theorem State.readByte_resetWith (p : List Instr) (lt : LabelTable) {b : Half} (he : b ≠ Config.entropyAddr) :
    (State.resetWith p lt).readByte b = 0x00#8 := by
  by_cases hk : b = Config.keyAddr
  · subst hk
    exact Memory.read_keyAddr _
  · exact Memory.read_of_ram_nil rfl he hk

/-- The registers, flags and index at reset (R34). -/
theorem State.resetWith_holds (p : List Instr) (lt : LabelTable) :
    (State.resetWith p lt).holds 0x00#8 0x00#8 0x00#8 0x01FF#16 ⟨false, false, false, false, false, false⟩ 0 :=
  ⟨rfl, rfl, rfl, rfl, rfl, rfl⟩

/-- The sp view at reset is the low byte of SP16 (R24, R34). -/
theorem State.resetWith_sp (p : List Instr) (lt : LabelTable) : (State.resetWith p lt).sp = 0xFF#8 := by
  have h : (0x01FF#16).setWidth 8 = 0xFF#8 := by decide
  exact h

/-- Settles O12: the registers and the sp view by their lemmas, memory by whether the address is the key cell, the rest
by the fields of the reset state. -/
theorem resetValues : Obligations.ResetValues := by
  intro p lt
  exact ⟨State.resetWith_holds p lt, State.resetWith_sp p lt, rfl,
    fun _ he => State.readByte_resetWith p lt he, rfl, rfl⟩

end Sys2Proof.Machine

namespace Sys2Proof.Machine

/-! ## The program store: what no step changes (R56) -/

/-- No effect of an instruction touches the program store: a fault and a halt set the status, a transfer, a call and a
return the index and the call stack, and any other instruction keeps the store by its frame. -/
theorem Effect.keeps_store {i : Instr} {s t : State} (h : Effect i s t) :
    t.program = s.program ∧ t.labels = s.labels := by
  cases h with
  | fault c => exact ⟨rfl, rfl⟩
  | halt o hi => exact ⟨rfl, rfl⟩
  | jump k hi hk => exact ⟨rfl, rfl⟩
  | call o l k hi hk hf => exact ⟨rfl, rfl⟩
  | ret o j cs hi hc => exact ⟨rfl, rfl⟩
  | data _ hd => exact ⟨hd.program, hd.labels⟩

/-- The end of a step writes memory and the count of draws only. -/
theorem finishStep_keeps_store (s : State) :
    s.finishStep.program = s.program ∧ s.finishStep.labels = s.labels := by
  rw [finishStep_frame]
  exact ⟨rfl, rfl⟩

/-- Settles O27: a step halts at the end of the program, or is an instruction's effect followed by the end of the step;
neither changes the program store. -/
theorem programStoreNeverChanges : Obligations.ProgramStoreNeverChanges := by
  intro s t h
  obtain ⟨-, ⟨-, rfl⟩ | ⟨i, u, -, hu, rfl⟩⟩ := step_cases h
  · exact ⟨rfl, rfl⟩
  · obtain ⟨hprogram, hlabels⟩ := (exec_effect hu).keeps_store
    obtain ⟨hprogram', hlabels'⟩ := finishStep_keeps_store u
    exact ⟨hprogram'.trans hprogram, hlabels'.trans hlabels⟩

end Sys2Proof.Machine

namespace Sys2Proof

/-! ## Hexadecimal digits (R63) -/

/-- A hexadecimal digit has a value below 16, and is a printing ASCII character other than the colon. -/
theorem hexDigit_some {c : Char} {d : Nat} (h : hexDigit c = some d) :
    d < 16 ∧ 0x30 ≤ c.toNat ∧ c.toNat ≤ 0x66 ∧ c.toNat ≠ 0x3A := by
  simp only [hexDigit] at h
  split_ifs at h
  all_goals
    cases h
    omega

theorem isAscii_of_hexDigit {c : Char} {d : Nat} (h : hexDigit c = some d) : isAscii c = true := by
  obtain ⟨-, -, hle, -⟩ := hexDigit_some h
  simp only [isAscii, decide_eq_true_eq]
  omega

theorem isSpace_of_hexDigit {c : Char} {d : Nat} (h : hexDigit c = some d) : isSpace c = false := by
  obtain ⟨-, hge, -, -⟩ := hexDigit_some h
  simp only [isSpace, Bool.or_eq_false_iff, beq_eq_false_iff_ne, Bool.and_eq_false_iff, decide_eq_false_iff_not]
  omega

theorem ne_colon_of_hexDigit {c : Char} {d : Nat} (h : hexDigit c = some d) : c ≠ ':' := by
  rintro rfl
  obtain ⟨-, -, -, hne⟩ := hexDigit_some h
  exact hne rfl

/-- Two digits have the base-16 value they spell, the first the more significant. -/
theorem hexFrom_pair {h l : Char} {d e : Nat} (hd : hexDigit h = some d) (he : hexDigit l = some e) :
    hexFrom 0 [h, l] = .ok (16 * d + e) := by
  simp [hexFrom, hd, he]

/-- A text with a character that is no digit is DECODE_BAD_HEX, whatever was read before it. -/
theorem hexFrom_badHex {t : Text} (ht : ∃ c ∈ t, hexDigit c = none) (acc : Nat) : hexFrom acc t = .error .badHex := by
  induction t generalizing acc with
  | nil => simp at ht
  | cons c t ih =>
    cases hc : hexDigit c with
    | none => simp [hexFrom, hc]
    | some d =>
      have ht' : ∃ c ∈ t, hexDigit c = none := by simpa [hc] using ht
      simp [hexFrom, hc, ih ht']

/-! ## The `#` form of the operand lexer (R65, R66) -/

theorem classify_hash (transfer : Bool) (t : Text) : classify transfer ('#' :: t) = classifyImmediate t := by
  simp [classify]

theorem classifyImmediate_dollar (h l : Char) :
    classifyImmediate ['$', h, l] = hexOperand 8 .immediate [h, l] := by
  simp [classifyImmediate]

/-- What stands after `#` is `$` and two characters, or the operand is malformed. -/
theorem classifyImmediate_malformed {t : Text} (ht : ∀ h l, t ≠ ['$', h, l]) :
    classifyImmediate t = .error .malformedOperand := by
  unfold classifyImmediate
  split
  · next d h l =>
    have hd : d ≠ '$' := fun hd => ht h l (by rw [hd])
    simp [hd]
  · rfl

theorem classify_immediate {h l : Char} {d e : Nat} (hd : hexDigit h = some d) (he : hexDigit l = some e)
    (transfer : Bool) :
    classify transfer ['#', '$', h, l] = .ok (.immediate (BitVec.ofNat 8 (16 * d + e))) := by
  rw [classify_hash, classifyImmediate_dollar, hexOperand, hexFrom_pair hd he]

/-! ## The decoder on a mnemonic and an operand field (R70, R72) -/

theorem opcodeOf_chars {op : Opcode} (hop : op ≠ .label) : opcodeOf op.chars = some op := by
  cases op
  case label => exact absurd rfl hop
  all_goals rfl

/-- A mnemonic is three ASCII characters, the last of them no colon. -/
theorem Opcode.chars_eq_three {op : Opcode} (hop : op ≠ .label) :
    ∃ a b c, op.chars = [a, b, c] ∧ [a, b, c].all isAscii = true ∧ c ≠ ':' := by
  cases op
  case label => exact absurd rfl hop
  all_goals exact ⟨_, _, _, rfl, by decide, by decide⟩

/-- After a mnemonic, an operand field that the lexer reads gives the record of that operand. -/
theorem decode_mnemonic {op : Opcode} {field : Text} {o : Operand} (hop : op ≠ .label)
    (hascii : field.all isAscii = true) (hcolon : field.getLast? ≠ some ':')
    (ho : classify op.isTransfer (stripWs field) = .ok o) :
    decode (op.chars ++ field) = .ok (op.build o (if op.isTransfer then trim field else [])) := by
  obtain ⟨a, b, c, habc, hall, hc⟩ := op.chars_eq_three hop
  have hopcode : opcodeOf [a, b, c] = some op := habc ▸ opcodeOf_chars hop
  have hline : ([a, b, c] ++ field).all isAscii = true := by rw [List.all_append, hall, hascii]; rfl
  have hlast : ([a, b, c] ++ field).getLast? ≠ some ':' := by
    rw [List.getLast?_append]
    cases hf : field.getLast? with
    | none => simpa using hc
    | some x => simpa [hf] using hcolon
  rw [habc, decode, if_pos hline, if_neg hlast]
  simp [decodeInstruction, hopcode, ho]

/-- Two digits after ` #$` are an operand field: ASCII, with no colon at its end, and only its space is stripped and
trimmed. -/
theorem immediateField_of_hexDigit {h l : Char} {d e : Nat} (hd : hexDigit h = some d) (he : hexDigit l = some e) :
    [' ', '#', '$', h, l].all isAscii = true ∧ [' ', '#', '$', h, l].getLast? ≠ some ':' ∧
      stripWs [' ', '#', '$', h, l] = ['#', '$', h, l] ∧ trim [' ', '#', '$', h, l] = ['#', '$', h, l] := by
  have hspace : isSpace ' ' = true ∧ isSpace '#' = false ∧ isSpace '$' = false := by decide
  have hascii : isAscii ' ' = true ∧ isAscii '#' = true ∧ isAscii '$' = true := by decide
  refine ⟨?_, ?_, ?_, ?_⟩
  · simp [hascii, isAscii_of_hexDigit hd, isAscii_of_hexDigit he]
  · simpa using ne_colon_of_hexDigit he
  · simp [stripWs, hspace, isSpace_of_hexDigit hd, isSpace_of_hexDigit he]
  · simp [trim, hspace, isSpace_of_hexDigit he]

theorem decode_immediate {h l : Char} {d e : Nat} (hd : hexDigit h = some d) (he : hexDigit l = some e)
    {op : Opcode} (hop : op ≠ .label) : decode (op.chars ++ [' ', '#', '$', h, l]) =
      .ok (op.build (.immediate (BitVec.ofNat 8 (16 * d + e))) (if op.isTransfer then ['#', '$', h, l] else [])) := by
  obtain ⟨hascii, hcolon, hstrip, htrim⟩ := immediateField_of_hexDigit hd he
  have ho : classify op.isTransfer (stripWs [' ', '#', '$', h, l]) = .ok (.immediate (BitVec.ofNat 8 (16 * d + e))) := by
    rw [hstrip, classify_immediate hd he]
  rw [decode_mnemonic hop hascii hcolon ho, htrim]

theorem immediate_value_toNat (v : Byte) : (Operand.immediate v).value.toNat = v.toNat :=
  BitVec.toNat_setWidth_of_le (by decide)

/-- Settles O5: two digits are the byte `16 * d + e`, which is below 256, so it is the value the lexer, the decoder and
the record all give; the errors are the lexer's for a character that is no digit and for a field of another shape. -/
theorem immediateOperandsDecode : Obligations.ImmediateOperandsDecode := by
  refine ⟨fun h l d e hd he => ?_, fun transfer h l hbad => ?_, fun transfer t ht => ?_⟩
  · obtain ⟨hd16, -⟩ := hexDigit_some hd
    obtain ⟨he16, -⟩ := hexDigit_some he
    have hv : (BitVec.ofNat 8 (16 * d + e)).toNat = 16 * d + e := by
      rw [BitVec.toNat_ofNat, Nat.mod_eq_of_lt]
      omega
    exact ⟨_, hv, (immediate_value_toNat _).trans hv, classify_immediate hd he,
      fun _ => decode_immediate hd he, fun _ => rfl⟩
  · have hmem : ∃ c ∈ [h, l], hexDigit c = none := by simpa using hbad
    rw [classify_hash, classifyImmediate_dollar, hexOperand, hexFrom_badHex hmem]
  · rw [classify_hash, classifyImmediate_malformed ht]

end Sys2Proof

namespace Sys2Proof.Machine

/-! ## The stages of a load (R95): decoding -/

theorem decodesTo_nil (p : List Instr) : decodesTo [] p ↔ p = [] := by
  simp [decodesTo]

/-- The lines decode to the records exactly when the first line does to the first record and the rest to the rest. -/
theorem decodesTo_cons (l : Text) (ls : List Text) (p : List Instr) :
    decodesTo (l :: ls) p ↔ ∃ i q, p = i :: q ∧ decode l = .ok i ∧ decodesTo ls q := by
  constructor
  · rintro ⟨hlen, hdec⟩
    obtain ⟨i, hi, hl⟩ := hdec 0 l rfl
    cases p with
    | nil => cases hi
    | cons x q =>
      cases hi
      exact ⟨i, q, rfl, hl, Nat.succ.inj hlen, fun k => hdec (k + 1)⟩
  · rintro ⟨i, q, rfl, hl, hlen, hdec⟩
    refine ⟨congrArg Nat.succ hlen, fun k line hk => ?_⟩
    cases k with
    | zero => cases hk; exact ⟨i, rfl, hl⟩
    | succ k => exact hdec k line hk

/-- Decoding succeeds with exactly the records the lines decode to. -/
theorem decodeLines_eq_ok_iff (n : Nat) (lines : List Text) (p : List Instr) :
    decodeLines n lines = .ok p ↔ decodesTo lines p := by
  induction lines generalizing n p with
  | nil => simp [decodeLines, decodesTo_nil, eq_comm]
  | cons l ls ih =>
    rw [decodesTo_cons]
    cases hl : decode l with
    | error e => simp [decodeLines, hl]
    | ok i =>
      have hq := ih (n + 1)
      cases hls : decodeLines (n + 1) ls with
      | error e => simp [decodeLines, hl, hls, ← hq]
      | ok q => simp [decodeLines, hl, hls, ← hq, eq_comm]

/-- The first line that does not decode is the one that is reported, with its index. -/
theorem decodeLines_first_error {lines : List Text} {k : Nat} {line : Text} {e : DecodeError}
    (hk : lines[k]? = some line) (he : decode line = .error e)
    (hbefore : ∀ j < k, ∀ l, lines[j]? = some l → ∃ i, decode l = .ok i) (n : Nat) :
    decodeLines n lines = .error ⟨.decodeError e, n + k⟩ := by
  induction lines generalizing n k with
  | nil => cases hk
  | cons l ls ih =>
    cases k with
    | zero => cases hk; simp [decodeLines, he]
    | succ k =>
      obtain ⟨i, hi⟩ := hbefore 0 k.succ_pos l rfl
      have hrest := ih hk (fun j hj => hbefore (j + 1) (Nat.succ_lt_succ hj)) (n + 1)
      simp [decodeLines, hi, hrest, Nat.add_right_comm n 1 k, Nat.add_assoc]

/-! ## The label table (R80, R81) -/

theorem scanLabels_label_new {lt : LabelTable} {name : Text} (h : lookupLabel lt name = none) (n : Nat)
    (p : List Instr) :
    scanLabels n lt (.label name :: p) = scanLabels (n + 1) (lt ++ [(name, n + 1)]) p := by
  simp [scanLabels, h]

theorem scanLabels_label_again {lt : LabelTable} {name : Text} (h : (lookupLabel lt name).isSome) (n : Nat)
    (p : List Instr) : scanLabels n lt (.label name :: p) = .error ⟨.duplicateLabel, n⟩ := by
  obtain ⟨k, hk⟩ := Option.isSome_iff_exists.mp h
  simp [scanLabels, hk]

theorem scanLabels_other {i : Instr} (h : ∀ name, i ≠ .label name) (n : Nat) (lt : LabelTable) (p : List Instr) :
    scanLabels n lt (i :: p) = scanLabels (n + 1) lt p := by
  rw [scanLabels]
  exact h

/-- The scan of a program is the scan of its end with the table of its beginning. -/
theorem scanLabels_append {n : Nat} {lt lt' : LabelTable} {p : List Instr} (h : scanLabels n lt p = .ok lt')
    (q : List Instr) : scanLabels n lt (p ++ q) = scanLabels (n + p.length) lt' q := by
  induction p generalizing n lt with
  | nil => cases h; rfl
  | cons i p ih =>
    have hlen : n + (i :: p).length = n + 1 + p.length := by rw [List.length_cons]; omega
    rw [hlen, List.cons_append]
    by_cases hi : ∃ name, i = .label name
    · obtain ⟨name, rfl⟩ := hi
      cases hk : lookupLabel lt name with
      | none =>
        rw [scanLabels_label_new hk] at h ⊢
        exact ih h
      | some k => simp [scanLabels, hk] at h
    · have hother : ∀ name, i ≠ .label name := not_exists.mp hi
      rw [scanLabels_other hother] at h ⊢
      exact ih h

/-- A name is in a table with one more entry exactly when it was before or is the new one. -/
theorem lookupLabel_append_isSome (lt : LabelTable) (name new : Text) (k : Nat) :
    (lookupLabel (lt ++ [(new, k)]) name).isSome ↔ (lookupLabel lt name).isSome ∨ new = name := by
  induction lt with
  | nil => by_cases h : new = name <;> simp [lookupLabel, h]
  | cons x lt ih => by_cases h : x.1 = name <;> simp [lookupLabel, h, ih]

/-- Where the first `n` records define no label twice, they have a label table, and the names in it are those that they
define. -/
theorem labelTable_take {p : List Instr} {n : Nat} (hn : n ≤ p.length) (h : labelsDistinctBelow n p) :
    ∃ lt, labelTable (p.take n) = .ok lt ∧
      ∀ name, (lookupLabel lt name).isSome ↔ ∃ i < n, p[i]? = some (.label name) := by
  induction n with
  | zero => exact ⟨[], rfl, by simp [lookupLabel]⟩
  | succ n ih =>
    obtain ⟨lt, htable, hnames⟩ := ih (by omega) fun i j name hij hj => h i j name hij (by omega)
    have hget : p[n]? = some p[n] := List.getElem?_eq_getElem hn
    have hscan : labelTable (p.take (n + 1)) = scanLabels n lt [p[n]] := by
      rw [List.take_succ_eq_append_getElem hn, labelTable, scanLabels_append htable, List.length_take]
      congr 1
      omega
    simp only [Nat.lt_succ_iff_lt_or_eq, or_and_right, exists_or, exists_eq_left, ← hnames]
    rw [hscan]
    by_cases hi : ∃ name, p[n] = .label name
    · obtain ⟨new, hnew⟩ := hi
      have hfresh : lookupLabel lt new = none := by
        rw [← Option.not_isSome_iff_eq_none, hnames]
        rintro ⟨i, hin, hi⟩
        exact h i n new hin n.lt_succ_self hi (by rw [hget, hnew])
      refine ⟨lt ++ [(new, n + 1)], ?_, fun name => ?_⟩
      · rw [hnew, scanLabels_label_new hfresh, scanLabels]
      · simp [lookupLabel_append_isSome, hget, hnew]
    · have hother : ∀ name, p[n] ≠ .label name := not_exists.mp hi
      refine ⟨lt, ?_, fun name => ?_⟩
      · rw [scanLabels_other hother, scanLabels]
      · simp [hget, hother name]

theorem labelTable_of_distinct {p : List Instr} (h : labelsDistinctBelow p.length p) :
    ∃ lt, labelTable p = .ok lt := by
  obtain ⟨lt, htable, -⟩ := labelTable_take le_rfl h
  exact ⟨lt, by rwa [List.take_length] at htable⟩

/-- The second definition of a label is the one that is reported, with its index. -/
theorem labelTable_second_definition {p : List Instr} {i j : Nat} {name : Text} (hij : i < j)
    (hi : p[i]? = some (.label name)) (hj : p[j]? = some (.label name)) (h : labelsDistinctBelow j p) :
    labelTable p = .error ⟨.duplicateLabel, j⟩ := by
  obtain ⟨hlt, hget⟩ := List.getElem?_eq_some_iff.mp hj
  obtain ⟨lt, htable, hnames⟩ := labelTable_take hlt.le h
  have hsplit : p = p.take j ++ .label name :: p.drop (j + 1) := by
    rw [← hget, ← List.drop_eq_getElem_cons hlt, List.take_append_drop]
  have hlen : 0 + (p.take j).length = j := by rw [List.length_take]; omega
  rw [hsplit, labelTable, scanLabels_append htable, hlen]
  exact scanLabels_label_again ((hnames name).mpr ⟨i, hij, hi⟩) j _

/-! ## The verifier (R85, R87) -/

theorem verifyFrom_eq_ok_iff (n : Nat) (p : List Instr) :
    verifyFrom n p = .ok () ↔ ∀ i ∈ p, i.legal = true := by
  induction p generalizing n with
  | nil => simp [verifyFrom]
  | cons i p ih => by_cases hi : i.legal = true <;> simp [verifyFrom, hi, ih]

/-- The first illegal record is the one that is reported, with its index. -/
theorem verifyFrom_first_illegal {p : List Instr} {k : Nat} {i : Instr} (hk : p[k]? = some i)
    (hi : i.legal = false) (hbefore : ∀ j < k, ∀ x, p[j]? = some x → x.legal = true) (n : Nat) :
    verifyFrom n p = .error ⟨.illegalMode, n + k⟩ := by
  induction p generalizing n k with
  | nil => cases hk
  | cons x p ih =>
    cases k with
    | zero => cases hk; simp [verifyFrom, hi]
    | succ k =>
      have hx : x.legal = true := hbefore 0 k.succ_pos x rfl
      have hrest := ih hk (fun j hj => hbefore (j + 1) (Nat.succ_lt_succ hj)) (n + 1)
      simp [verifyFrom, hx, hrest, Nat.add_right_comm n 1 k, Nat.add_assoc]

/-! ## Assembling and loading (R95) -/

/-- What is assembled is decoded, has its own label table, and is verified. -/
theorem assemble_eq_ok_iff (lines : List Text) (p : List Instr) (lt : LabelTable) :
    assemble lines = .ok (p, lt) ↔ decodesTo lines p ∧ labelTable p = .ok lt ∧ ∀ i ∈ p, i.legal = true := by
  rw [← decodeLines_eq_ok_iff 0, ← verifyFrom_eq_ok_iff 0]
  constructor
  · intro h
    unfold assemble at h
    split at h
    · cases h
    next hdec =>
    split at h
    · cases h
    next htable =>
    split at h
    · cases h
    next hverify =>
    cases h
    exact ⟨hdec, htable, hverify⟩
  · rintro ⟨hdec, htable, hverify⟩
    simp [assemble, hdec, htable, hverify]

theorem load_of_assemble_error {lines : List Text} {e : LoadError} (h : assemble lines = .error e) :
    load lines = .error e := by
  simp [load, h]

/-- A load that succeeds installs what is assembled and resets the engine. -/
theorem load_eq_ok {lines : List Text} {s : State} (h : load lines = .ok s) :
    ∃ p lt, assemble lines = .ok (p, lt) ∧ s = State.resetWith p lt := by
  unfold load at h
  split at h
  · cases h
  next p lt hasm =>
  split at h
  · cases h
  · cases h
    exact ⟨p, lt, hasm, rfl⟩

/-- What is assembled is installed unless the capacity refuses it. -/
theorem load_of_assemble_ok {lines : List Text} {p : List Instr} {lt : LabelTable}
    (h : assemble lines = .ok (p, lt)) : load lines = (checkCapacity p).map fun _ => State.resetWith p lt := by
  simp only [load, h]
  cases checkCapacity p <;> rfl

/-- The empty program is no longer than any IMEM_DEPTH. -/
theorem checkCapacity_nil : checkCapacity [] = .ok () := by
  unfold checkCapacity
  cases Config.imemDepth <;> rfl

theorem load_nil : load [] = .ok State.reset := by
  have hasm : assemble [] = .ok ([], []) := rfl
  rw [load_of_assemble_ok hasm, checkCapacity_nil]
  rfl

/-- Settles O9: each stage's own lemma, carried through the stages before it, which succeed. -/
theorem loadStagesAndErrors : Obligations.LoadStagesAndErrors := by
  refine ⟨fun lines k line e hk he hbefore => ?_, fun lines p i j name hdec hij hi hj hdistinct => ?_,
    fun lines p k i hdec hdistinct hk hi hbefore => ?_, fun lines p hdec hdistinct hlegal => ?_, load_nil, rfl, rfl, rfl⟩
  · have hstage := decodeLines_first_error hk he hbefore 0
    exact load_of_assemble_error (by simp [assemble, hstage])
  · have hlines := (decodeLines_eq_ok_iff 0 lines p).mpr hdec
    have hstage := labelTable_second_definition hij hi hj hdistinct
    exact load_of_assemble_error (by simp [assemble, hlines, hstage])
  · have hlines := (decodeLines_eq_ok_iff 0 lines p).mpr hdec
    obtain ⟨lt, htable⟩ := labelTable_of_distinct hdistinct
    have hstage := verifyFrom_first_illegal hk hi hbefore 0
    exact load_of_assemble_error (by simp [assemble, hlines, htable, hstage])
  · obtain ⟨lt, htable⟩ := labelTable_of_distinct hdistinct
    refine ⟨lt, htable, ?_⟩
    rw [load_of_assemble_ok ((assemble_eq_ok_iff lines p lt).mpr ⟨hdec, htable, hlegal⟩), checkCapacity]
    cases Config.imemDepth with
    | none => rfl
    | some d => by_cases hd : d < p.length <;> simp [hd, Except.map]

/-- Settles O10: what the stages of an assembly that succeeds have passed, and what a load that succeeds installs. -/
theorem loadedProgramsAreVerified : Obligations.LoadedProgramsAreVerified :=
  ⟨fun lines p lt => (assemble_eq_ok_iff lines p lt).mp, fun _ _ => load_eq_ok⟩

end Sys2Proof.Machine

namespace Sys2Proof.Machine

/-! ## Effective addresses as numbers (R44, R110) -/

/-- The cell at `hi` is the high byte of a pointer, the cell at `lo` its low byte (R44). -/
theorem readPointer_toNat (s : State) (lo hi : Half) :
    (s.readPointer lo hi).toNat = 256 * (s.readByte hi).toNat + (s.readByte lo).toNat := by
  have hlo : (s.readByte lo).toNat < 2 ^ 8 := (s.readByte lo).isLt
  rw [State.readPointer, BitVec.toNat_append, ← Nat.shiftLeft_add_eq_or_of_lt hlo, Nat.shiftLeft_eq]
  omega

theorem zeroPageAddr_eq_ofNat (v : Byte) : zeroPageAddr v = BitVec.ofNat 16 v.toNat :=
  (BitVec.ofNat_toNat 16 v).symm

theorem zeroPageAddr_toNat (v : Byte) : (zeroPageAddr v).toNat = v.toNat :=
  BitVec.toNat_setWidth_of_le (by decide)

/-- A zero-page pointer as a number: its second cell wraps within the zero page (R110, D30). -/
theorem zeroPagePointer_toNat (s : State) (p : Byte) :
    (s.zeroPagePointer p).toNat = 256 * (s.readByte (BitVec.ofNat 16 ((p.toNat + 1) % 256))).toNat +
      (s.readByte (BitVec.ofNat 16 p.toNat)).toNat := by
  have hnext : (p + 1).toNat = (p.toNat + 1) % 256 := BitVec.toNat_add p 1
  rw [State.zeroPagePointer, readPointer_toNat, zeroPageAddr_eq_ofNat, zeroPageAddr_eq_ofNat, hnext]

/-- A 16-bit address indexed by a byte wraps modulo 65536 (R110, D30). -/
theorem indexed_toNat (a : Half) (v : Byte) : (a + v.setWidth 16).toNat = (a.toNat + v.toNat) % 65536 := by
  rw [BitVec.toNat_add, BitVec.toNat_setWidth_of_le (by decide)]

/-- Settles O17: the zero-page modes by their address's value, the indexed ones by the wrap of their sum, the indirect
ones by their pointer's value. -/
theorem effectiveAddresses : Obligations.EffectiveAddresses := by
  intro s
  refine ⟨readPointer_toNat s, fun v => ⟨_, rfl, zeroPageAddr_toNat v⟩, fun v => ⟨_, rfl, ?_⟩, fun v => ⟨_, rfl, ?_⟩,
    fun v => rfl, fun v => ⟨_, rfl, indexed_toNat v s.x⟩, fun v => ⟨_, rfl, indexed_toNat v s.y⟩,
    fun v => ⟨_, rfl, ?_⟩, fun v => ⟨_, rfl, ?_⟩, fun v => rfl, rfl, rfl⟩
  · rw [zeroPageAddr_toNat, BitVec.toNat_add]
  · rw [zeroPageAddr_toNat, BitVec.toNat_add]
  · have hp : (v + s.x).toNat = (v.toNat + s.x.toNat) % 256 := BitVec.toNat_add v s.x
    rw [zeroPagePointer_toNat, hp, Nat.mod_add_mod]
  · rw [indexed_toNat, zeroPagePointer_toNat]

/-! ## Operand reads, store addresses and read-modify-write targets (R111 to R113) -/

/-- Only a memory operand has an effective address, and it is the operand's address. -/
theorem inMemory_of_ea {s : State} {o : Operand} {a : Half} (h : s.ea o = some a) :
    inMemory o = true ∧ s.addressOf o = a := by
  refine ⟨?_, by simp [State.addressOf, h]⟩
  by_contra hm
  simp [ea_notInMemory s (Bool.eq_false_of_not_eq_true hm)] at h

/-- An operand without an effective address is no memory operand. -/
theorem inMemory_of_ea_none {s : State} {o : Operand} (h : s.ea o = none) : inMemory o = false := by
  by_contra hm
  simp [ea_inMemory s (Bool.eq_true_of_not_eq_false hm)] at h

/-- A memory operand is read at its address (R111). -/
theorem readOperand_inMemory (s : State) {o : Operand} (h : inMemory o = true) :
    s.readOperand o = .ok (s.readByte (s.addressOf o)) := by
  unfold State.readOperand
  split
  · exact absurd h Bool.false_ne_true
  · rw [ea_inMemory s h]

/-- Settles O18: an operand with an effective address is a memory operand, whose read, store address and target go to
that address; the other modes by their own lemmas, and the accumulator's and a cell's read and write by definition. -/
theorem operandsAreReadAndTargeted : Obligations.OperandsAreReadAndTargeted := by
  intro s o
  refine ⟨fun v => rfl, fun a ha => ?_, fun hnone => ?_, readOperand_unreadable s rfl, readOperand_unreadable s rfl,
    rmwTarget_accumulator s, rfl, fun a => rfl, fun v => rfl, fun a v => rfl⟩
  · obtain ⟨hm, rfl⟩ := inMemory_of_ea ha
    exact ⟨readOperand_inMemory s hm, storeAddr_inMemory s hm, fun acc => rmwTarget_inMemory s acc hm⟩
  · have hm := inMemory_of_ea_none hnone
    exact ⟨storeAddr_notInMemory s hm, rmwTarget_none s hm (.inl rfl), fun ho => rmwTarget_none s hm (.inr ho)⟩

/-! ## Label resolution (R121) -/

/-- Every control transfer resolves its label first; only what follows differs. -/
theorem exec_transfer {transfer : Operand → Text → Instr} (h : transfer ∈ transferTable) (o : Operand) (l : Text)
    (s : State) : ∃ k, exec (transfer o l) s = orFault s (s.target l) k := by
  simp only [transferTable, branchTable, List.map_cons, List.map_nil, List.mem_cons, List.not_mem_nil, or_false] at h
  rcases h with rfl | rfl | rfl | rfl | rfl | rfl | rfl | rfl | rfl | rfl <;> exact ⟨_, rfl⟩

/-- Settles O54: the target by whether the table has the name; an unresolved one is the fault that every transfer's
first test raises. -/
theorem unresolvedLabelsFault : Obligations.UnresolvedLabelsFault := by
  refine fun l s => ⟨fun k => target_found, fun hnone => ⟨target_unresolved hnone, fun transfer hmem o => ?_⟩⟩
  obtain ⟨k, hexec⟩ := exec_transfer hmem o l s
  rw [hexec, target_unresolved hnone, orFault_error]
  rfl

end Sys2Proof.Machine

namespace Sys2Proof.Machine

/-! ## Encoding lines (R77, R85) -/

/-- A mnemonic is found under its own name, so an opcode's line is its name, its ordinal and its row of R85. -/
theorem encodedAs_of_legal {op : Opcode} {name : String} {ordinal : Nat} {modes : List Mode} (hop : op ≠ .label)
    (hname : op.chars = name.toList) (hordinal : op.ordinal = ordinal)
    (hmodes : ∀ m, op.legal m = true ↔ m ∈ modes) : encodedAs op name ordinal modes :=
  ⟨hname, hname ▸ opcodeOf_chars hop, hordinal, hmodes⟩

/-- The same for an opcode with a single legal mode. -/
theorem encodedAs_single {op : Opcode} {name : String} {ordinal : Nat} {mode : Mode} (hop : op ≠ .label)
    (hname : op.chars = name.toList) (hordinal : op.ordinal = ordinal)
    (hmode : ∀ m, op.legal m = decide (m = mode)) : encodedAs op name ordinal [mode] :=
  encodedAs_of_legal hop hname hordinal fun m => by rw [hmode, decide_eq_true_eq, List.mem_singleton]

/-! ## What a control transfer leaves (R104, R105) -/

/-- A redirection writes the index only. -/
theorem State.setPc_changes_index_only (s : State) (k : Nat) : (s.setPc k).holds s.a s.x s.y s.sp16 s.flags k ∧
    sameMemory s (s.setPc k) ∧ sameControl s (s.setPc k) :=
  ⟨⟨rfl, rfl, rfl, rfl, rfl, rfl⟩, fun _ => rfl, rfl, rfl, rfl, rfl, rfl, rfl⟩

/-- A call or a return writes the call stack and the index only. -/
theorem State.setCallStack_setPc_changes_only_these (s : State) (cs : List Nat) (k : Nat) :
    ((s.setCallStack cs).setPc k).holds s.a s.x s.y s.sp16 s.flags k ∧
    sameMemory s ((s.setCallStack cs).setPc k) ∧ sameEngine s ((s.setCallStack cs).setPc k) :=
  ⟨⟨rfl, rfl, rfl, rfl, rfl, rfl⟩, fun _ => rfl, rfl, rfl, rfl, rfl, rfl⟩

/-- Taking a fault, in the terms of claims (R252). -/
theorem State.raiseFault_eq_faultedWith (s : State) (c : FaultCode) : s.raiseFault c = s.faultedWith c := rfl

/-- A control transfer to a name that is not in the table faults (R121). -/
theorem exec_transfer_unresolved {transfer : Operand → Text → Instr} (hmem : transfer ∈ transferTable) {l : Text}
    {s : State} (hnone : lookupLabel s.labels l = none) (o : Operand) :
    exec (transfer o l) s = .next (s.faultedWith .unresolvedLabel) := by
  obtain ⟨-, hfault⟩ := unresolvedLabelsFault l s
  obtain ⟨-, hexec⟩ := hfault hnone
  exact hexec transfer hmem o

/-! ## JMP (R133) -/

theorem exec_jmp_found {l : Text} {s : State} {k : Nat} (hk : lookupLabel s.labels l = some k) (o : Operand) :
    exec (.jmp o l) s = .next (s.setPc k) := by
  rw [exec_jmp, hk, Option.elim_some]

/-- Settles O49: a name in the table redirects, which writes the index only; one that is not in it is the fault of every
control transfer. -/
theorem jmpResult : Obligations.JmpResult := by
  refine ⟨encodedAs_single nofun rfl rfl fun _ => rfl, fun o l s => ⟨fun k hk => ?_, fun hnone => ?_⟩⟩
  · exact ⟨_, exec_jmp_found hk o, s.setPc_changes_index_only k⟩
  · exact exec_transfer_unresolved (by simp [transferTable]) hnone o

/-! ## JSR (R30, R131) -/

theorem State.callStackFull_iff (s : State) :
    s.callStackFull = true ↔ Config.callStackDepth = some s.callStack.length := by
  rw [State.callStackFull, beq_iff_eq]

/-- There is room exactly where the call stack's length is not its capacity. -/
theorem State.hasRoom_iff (s : State) : s.hasRoom ↔ Config.callStackDepth ≠ some s.callStack.length :=
  ⟨fun hroom hfull => hroom _ hfull rfl, fun hne _ hd hlen => hne (hlen ▸ hd)⟩

/-- A JSR to a name in the table faults on a full call stack, and else pushes its own index. -/
theorem exec_jsr_found {l : Text} {s : State} {k : Nat} (hk : lookupLabel s.labels l = some k) (o : Operand) :
    exec (.jsr o l) s = .next (if Config.callStackDepth = some s.callStack.length
      then s.faultedWith .callStackOverflow else (s.setCallStack (s.pc :: s.callStack)).setPc k) := by
  simp only [exec_jsr, hk, Option.elim_some, s.callStackFull_iff, s.raiseFault_eq_faultedWith]

/-- Settles O50: with the label resolved, whether the call stack is full decides between the fault and the call, which
writes the call stack and the index only; an unresolved label is the fault of every control transfer. -/
theorem jsrResult : Obligations.JsrResult := by
  refine ⟨encodedAs_single nofun rfl rfl fun _ => rfl,
    fun o l s => ⟨fun k hk hroom => ?_, fun k hk => exec_jsr_found hk o, fun hnone => ?_⟩⟩
  · have hexec := exec_jsr_found hk o
    rw [if_neg (s.hasRoom_iff.mp hroom)] at hexec
    exact ⟨_, hexec, rfl, s.setCallStack_setPc_changes_only_these _ k⟩
  · exact exec_transfer_unresolved (by simp [transferTable]) hnone o

/-! ## RTS (R132) -/

theorem exec_rts_return {s : State} {j : Nat} {cs : List Nat} (hcs : s.callStack = j :: cs) (o : Operand) :
    exec (.rts o) s = .next ((s.setCallStack cs).setPc (j + 1)) := by
  rw [exec_rts, hcs]

theorem exec_rts_empty {s : State} (hcs : s.callStack = []) (o : Operand) :
    exec (.rts o) s = .next (s.faultedWith .callStackEmpty) := by
  rw [exec_rts, hcs, ← s.raiseFault_eq_faultedWith]

/-- Settles O51: the call stack has a top to return to, or it is empty. -/
theorem rtsResult : Obligations.RtsResult :=
  ⟨encodedAs_single nofun rfl rfl fun _ => rfl, fun o s =>
    ⟨fun j _ hcs => ⟨_, exec_rts_return hcs o, rfl, s.setCallStack_setPc_changes_only_these _ (j + 1)⟩,
      fun hcs => exec_rts_empty hcs o⟩⟩

/-! ## RTI (R134) -/

/-- Settles O55: RTI's only answer is the fault. -/
theorem rtiFaults : Obligations.RtiFaults :=
  ⟨encodedAs_single nofun rfl rfl fun _ => rfl, exec_rti⟩

/-! ## The conditional branches (R143, R144) -/

/-- A branch to a name in the table redirects to the name's index if it is taken, else to the next index. -/
theorem branch_found {l : Text} {s : State} {k : Nat} (hk : lookupLabel s.labels l = some k) (taken : Bool) :
    branch taken l s = .next (s.setPc (if taken then k else s.pc + 1)) := by
  rw [branch_eq, hk]
  cases taken <;> rfl

/-- Each of the eight is taken exactly if its flag has the value in the polarity table (R144). -/
theorem exec_branch {p : (Operand → Text → Instr) × (Flags → Bool) × Bool} (hp : p ∈ branchTable) (o : Operand)
    (l : Text) (s : State) : exec (p.1 o l) s = branch (p.2.1 s.flags == p.2.2) l s := by
  simp only [branchTable, List.mem_cons, List.not_mem_nil, or_false] at hp
  rcases hp with rfl | rfl | rfl | rfl | rfl | rfl | rfl | rfl <;> simp only [beq_true, beq_false] <;> rfl

/-- The eight branches are control transfers. -/
theorem mem_transferTable_of_branch {p : (Operand → Text → Instr) × (Flags → Bool) × Bool} (hp : p ∈ branchTable) :
    p.1 ∈ transferTable :=
  List.mem_cons_of_mem _ (List.mem_cons_of_mem _ (List.mem_map_of_mem hp))

/-- Settles O53: by the polarity table each of the eight is the common form, whose two ways out both write the index
only; an unresolved label is the fault of every control transfer. -/
theorem branchResults : Obligations.BranchResults := by
  refine ⟨encodedAs_single nofun rfl rfl fun _ => rfl, encodedAs_single nofun rfl rfl fun _ => rfl,
    encodedAs_single nofun rfl rfl fun _ => rfl, encodedAs_single nofun rfl rfl fun _ => rfl,
    encodedAs_single nofun rfl rfl fun _ => rfl, encodedAs_single nofun rfl rfl fun _ => rfl,
    encodedAs_single nofun rfl rfl fun _ => rfl, encodedAs_single nofun rfl rfl fun _ => rfl,
    fun p hp o l s => ⟨fun k hk => ?_, fun hnone => ?_⟩⟩
  · simp only [exec_branch hp, branch_found hk, beq_iff_eq]
    exact ⟨_, rfl, s.setPc_changes_index_only _⟩
  · exact exec_transfer_unresolved (mem_transferTable_of_branch hp) hnone o

end Sys2Proof.Machine

namespace Sys2Proof.Machine

/-! ## Arithmetic and logic: what the instructions of 42_arithmetic_logic.md share -/

theorem mem_anyMode (m : Mode) : m ∈ anyMode := by
  cases m <;> decide

/-- The encoding line of an instruction that the verifier admits in every mode (R85). -/
theorem encodedAs_anyMode {op : Opcode} {name : String} {ordinal : Nat} (hop : op ≠ .label)
    (hname : op.chars = name.toList) (hordinal : op.ordinal = ordinal) (hany : ∀ m, op.legal m = true) :
    encodedAs op name ordinal anyMode :=
  encodedAs_of_legal hop hname hordinal fun m => iff_of_true (hany m) (mem_anyMode m)

/-- Writing the flags and advancing changes nothing else (R104, R105). -/
theorem State.setFlags_advance_changes_only_these (s : State) (f : Flags) :
    (s.setFlags f).advance.holds s.a s.x s.y s.sp16 f (s.pc + 1) ∧ sameMemory s (s.setFlags f).advance ∧
    sameControl s (s.setFlags f).advance :=
  ⟨⟨rfl, rfl, rfl, rfl, rfl, rfl⟩, fun _ => rfl, rfl, rfl, rfl, rfl, rfl, rfl⟩

/-- Writing the accumulator and the flags and advancing changes nothing else (R104, R105). -/
theorem State.setA_setFlags_advance_changes_only_these (s : State) (v : Byte) (f : Flags) :
    ((s.setA v).setFlags f).advance.holds v s.x s.y s.sp16 f (s.pc + 1) ∧
    sameMemory s ((s.setA v).setFlags f).advance ∧ sameControl s ((s.setA v).setFlags f).advance :=
  (s.setA v).setFlags_advance_changes_only_these f

/-- An instruction that reads its operand first has one outcome with an operand and faults without one (R111). -/
theorem outcomes_of_readable {answer : Result} {o : Operand} {s t : State}
    (h : answer = .next (if readable o then t else s.raiseFault .operandMissing)) :
    (readable o = true → answer = .next t) ∧
    (readable o = false → answer = .next (s.faultedWith .operandMissing)) := by
  refine ⟨fun ho => ?_, fun ho => ?_⟩
  · rw [h, if_pos ho]
  · rw [h, if_neg (ne_true_of_eq_false ho), s.raiseFault_eq_faultedWith]

/-- One that tests D before it reads faults with D = 1, operand or none (R150, R151). -/
theorem outcomes_of_binaryOnly {answer : Result} {o : Operand} {s t : State}
    (h : answer = .next (if s.flags.d then s.raiseFault .decimalUnsupported
      else if readable o then t else s.raiseFault .operandMissing)) :
    (s.flags.d = false → readable o = true → answer = .next t) ∧
    (s.flags.d = true → answer = .next (s.faultedWith .decimalUnsupported)) ∧
    (s.flags.d = false → readable o = false → answer = .next (s.faultedWith .operandMissing)) := by
  cases hd : s.flags.d
  · rw [hd, if_neg Bool.false_ne_true] at h
    obtain ⟨hread, hmissing⟩ := outcomes_of_readable h
    exact ⟨fun _ => hread, nofun, fun _ => hmissing⟩
  · rw [hd, if_pos rfl, s.raiseFault_eq_faultedWith] at h
    exact ⟨nofun, fun _ => h, nofun⟩

/-! ## ADC (R150) -/

theorem adcResult_toNat (a m : Byte) : (adcResult a m).toNat = (a.toNat + m.toNat) % 256 :=
  BitVec.toNat_ofNat _ 8

theorem adcResult_eq_add (a m : Byte) : adcResult a m = a + m :=
  BitVec.eq_of_toNat_eq (by rw [adcResult_toNat, BitVec.toNat_add])

/-- R150's sign test: the operands' signs agree and the result's differs exactly where the signed sum overflows. -/
theorem adcResult_overflow (a m : Byte) : (~~~(a ^^^ m) &&& (a ^^^ adcResult a m)).msb =
    decide (a.toInt + m.toInt < -128 ∨ 127 < a.toInt + m.toInt) := by
  have hsigns : (~~~(a ^^^ m) &&& (a ^^^ adcResult a m)).msb = a.saddOverflow m := by
    rw [adcResult_eq_add, BitVec.saddOverflow_eq]
    simp only [BitVec.msb_and, BitVec.msb_not, BitVec.msb_xor]
    cases a.msb <;> cases m.msb <;> cases (a + m).msb <;> rfl
  rw [hsigns, BitVec.saddOverflow, Bool.eq_iff_iff]
  simp only [Bool.or_eq_true, decide_eq_true_eq]
  omega

theorem Flags.afterAdc_eq (f : Flags) (a m : Byte) : f.afterAdc a m = { withNZ f (adcResult a m) with
    c := decide (255 < a.toNat + m.toNat)
    v := decide (a.toInt + m.toInt < -128 ∨ 127 < a.toInt + m.toInt) } := by
  rw [Flags.afterAdc, setNZ_eq, adcResult_overflow]
  rfl

/-- Settles O34: the outcomes by the tests of D and of the operand, the flags by their equation, the frame by that of an
accumulator write. (The plain name is the model's function.) -/
theorem adcResultHolds : Obligations.AdcResult := by
  refine ⟨encodedAs_anyMode nofun rfl rfl fun _ => rfl, fun o s => ?_⟩
  obtain ⟨hread, hdecimal, hmissing⟩ := outcomes_of_binaryOnly (exec_adc o s)
  rw [Flags.afterAdc_eq] at hread
  exact ⟨fun hd ho => ⟨_, hread hd ho, adcResult_toNat s.a (s.operandByte o),
    s.setA_setFlags_advance_changes_only_these _ _⟩, hdecimal, hmissing⟩

/-! ## SBC (R151) -/

theorem sbcResult_toNat (a m : Byte) : ((sbcResult a m).toNat : Int) = ((a.toNat : Int) - m.toNat) % 256 := by
  rw [sbcResult, BitVec.toNat_ofInt]
  omega

theorem sbcResult_eq_sub (a m : Byte) : sbcResult a m = a - m := by
  have hr := sbcResult_toNat a m
  apply BitVec.eq_of_toNat_eq
  rw [BitVec.toNat_sub]
  omega

/-- R151's sign test: the operands' signs differ and the result's is not the accumulator's exactly where the signed
difference overflows. -/
theorem sbcResult_overflow (a m : Byte) : ((a ^^^ m) &&& (a ^^^ sbcResult a m)).msb =
    decide (a.toInt - m.toInt < -128 ∨ 127 < a.toInt - m.toInt) := by
  have hsigns : ((a ^^^ m) &&& (a ^^^ sbcResult a m)).msb = a.ssubOverflow m := by
    rw [sbcResult_eq_sub, BitVec.ssubOverflow_eq]
    simp only [BitVec.msb_and, BitVec.msb_xor]
    cases a.msb <;> cases m.msb <;> cases (a - m).msb <;> rfl
  rw [hsigns, BitVec.ssubOverflow, Bool.eq_iff_iff]
  simp only [Bool.or_eq_true, decide_eq_true_eq]
  omega

theorem Flags.afterSbc_eq (f : Flags) (a m : Byte) : f.afterSbc a m = { withNZ f (sbcResult a m) with
    c := decide (m.toNat ≤ a.toNat)
    v := decide (a.toInt - m.toInt < -128 ∨ 127 < a.toInt - m.toInt) } := by
  rw [Flags.afterSbc, setNZ_eq, sbcResult_overflow]
  rfl

/-- Settles O35: as for ADC, with the difference's value and flags. (The plain name is the model's function.) -/
theorem sbcResultHolds : Obligations.SbcResult := by
  refine ⟨encodedAs_anyMode nofun rfl rfl fun _ => rfl, fun o s => ?_⟩
  obtain ⟨hread, hdecimal, hmissing⟩ := outcomes_of_binaryOnly (exec_sbc o s)
  rw [Flags.afterSbc_eq] at hread
  exact ⟨fun hd ho => ⟨_, hread hd ho, sbcResult_toNat s.a (s.operandByte o),
    s.setA_setFlags_advance_changes_only_these _ _⟩, hdecimal, hmissing⟩

/-! ## AND, ORA and EOR (R152 to R154) -/

/-- The three are one form: a result made bit by bit with the operation's gate goes to the accumulator, with N and Z
from it, or there is no operand to read. -/
theorem exec_bitwise {p : (Operand → Instr) × (Bool → Bool → Bool)}
    (hp : p ∈ [(Instr.and, and), (Instr.ora, or), (Instr.eor, xor)]) (o : Operand) (s : State) :
    ∃ r : Byte, (∀ k, r.getLsbD k = p.2 (s.a.getLsbD k) ((s.operandByte o).getLsbD k)) ∧
      exec (p.1 o) s = .next (if readable o then ((s.setA r).setFlags (s.flags.setNZ r)).advance
        else s.raiseFault .operandMissing) := by
  simp only [List.mem_cons, List.not_mem_nil, or_false] at hp
  rcases hp with rfl | rfl | rfl
  · exact ⟨_, fun _ => BitVec.getLsbD_and, exec_and o s⟩
  · exact ⟨_, fun _ => BitVec.getLsbD_or, exec_ora o s⟩
  · exact ⟨_, fun _ => BitVec.getLsbD_xor, exec_eor o s⟩

/-- Settles O36: the common form of the three, by whether the operand is readable. -/
theorem logicResults : Obligations.LogicResults := by
  refine ⟨encodedAs_anyMode nofun rfl rfl fun _ => rfl, encodedAs_anyMode nofun rfl rfl fun _ => rfl,
    encodedAs_anyMode nofun rfl rfl fun _ => rfl, fun p hp o s => ?_⟩
  obtain ⟨r, hbits, hexec⟩ := exec_bitwise hp o s
  rw [setNZ_eq] at hexec
  obtain ⟨hread, hmissing⟩ := outcomes_of_readable hexec
  exact ⟨fun ho => ⟨_, hread ho, fun k _ => hbits k, s.setA_setFlags_advance_changes_only_these r _⟩, hmissing⟩

/-! ## BIT (R155) -/

theorem Flags.afterBit_eq (f : Flags) (a m : Byte) : f.afterBit a m = { f with
    z := decide (a.toNat &&& m.toNat = 0)
    n := decide (128 ≤ m.toNat)
    v := decide (64 ≤ m.toNat % 128) } := by
  have hz : ((a &&& m) == 0) = decide (a.toNat &&& m.toNat = 0) := by
    rw [Bool.eq_iff_iff, beq_iff_eq, decide_eq_true_eq, ← BitVec.toNat_inj, BitVec.toNat_and]
    rfl
  have hn : m.getLsbD 7 = decide (128 ≤ m.toNat) := m.msb_eq_getLsbD_last.symm.trans m.msb_eq_decide
  have hv : m.getLsbD 6 = decide (64 ≤ m.toNat % 128) := by
    rw [BitVec.getLsbD, Nat.testBit_eq_decide_div_mod_eq, decide_eq_decide]
    omega
  rw [Flags.afterBit, hz, hn, hv]

/-- Settles O37: the flags by their equation, the frame by that of a flags write. -/
theorem bitResult : Obligations.BitResult := by
  refine ⟨encodedAs_of_legal nofun rfl rfl fun _ => decide_eq_true_iff, fun o s => ?_⟩
  obtain ⟨hread, hmissing⟩ := outcomes_of_readable (exec_bit o s)
  rw [Flags.afterBit_eq] at hread
  exact ⟨hmissing, fun ho => ⟨_, hread ho, s.setFlags_advance_changes_only_these _⟩⟩

end Sys2Proof.Machine

namespace Sys2Proof.Machine

/-! ## What the instructions of 43_shift_compare_incdec.md share -/

/-- Writing X and the flags and advancing changes nothing else (R104, R105). -/
theorem State.setX_setFlags_advance_changes_only_these (s : State) (v : Byte) (f : Flags) :
    ((s.setX v).setFlags f).advance.holds s.a v s.y s.sp16 f (s.pc + 1) ∧
    sameMemory s ((s.setX v).setFlags f).advance ∧ sameControl s ((s.setX v).setFlags f).advance :=
  (s.setX v).setFlags_advance_changes_only_these f

/-- Writing Y and the flags and advancing changes nothing else (R104, R105). -/
theorem State.setY_setFlags_advance_changes_only_these (s : State) (v : Byte) (f : Flags) :
    ((s.setY v).setFlags f).advance.holds s.a s.x v s.sp16 f (s.pc + 1) ∧
    sameMemory s ((s.setY v).setFlags f).advance ∧ sameControl s ((s.setY v).setFlags f).advance :=
  (s.setY v).setFlags_advance_changes_only_these f

/-- Writing one byte and the flags and advancing changes nothing else (R104, R105). -/
theorem State.writeByte_setFlags_advance_changes_only_these (s : State) (a : Half) (v : Byte) (f : Flags) :
    ((s.writeByte a v).setFlags f).advance.holds s.a s.x s.y s.sp16 f (s.pc + 1) ∧
    sameMemoryBut a s ((s.writeByte a v).setFlags f).advance ∧
    sameControl s ((s.writeByte a v).setFlags f).advance :=
  ⟨⟨rfl, rfl, rfl, rfl, rfl, rfl⟩, fun _ => s.readByte_writeByte_ne v, rfl, rfl, rfl, rfl, rfl, rfl⟩

/-- A read-modify-write instruction on a cell of a canonical memory leaves there what it makes of the cell's byte, with
its flags (R113). -/
theorem readModifyWrite_cell (acc : Bool) (op : ByteOp) {o : Operand} {s : State} (hm : s.mem.wf = true)
    (ho : inMemory o = true) : ∃ t, readModifyWrite acc op o s = .next t ∧
      t.readByte (s.addressOf o) = (op s.flags (s.readByte (s.addressOf o))).1 ∧
      t.holds s.a s.x s.y s.sp16 (op s.flags (s.readByte (s.addressOf o))).2 (s.pc + 1) ∧
      sameMemoryBut (s.addressOf o) s t ∧ sameControl s t :=
  ⟨_, readModifyWrite_inMemory acc op s ho, State.readByte_writeByte_self hm _ _,
    s.writeByte_setFlags_advance_changes_only_these _ _ _⟩

/-! ## ASL, LSR, ROL and ROR (R170 to R173) -/

theorem shiftLeft_one_toNat (v : Byte) : (v <<< 1).toNat = 2 * v.toNat % 256 := by
  rw [BitVec.toNat_shiftLeft, Nat.shiftLeft_eq]
  omega

theorem shiftRight_one_toNat (v : Byte) : (v >>> 1).toNat = v.toNat / 2 := by
  rw [BitVec.toNat_ushiftRight, Nat.shiftRight_eq_div_pow]

theorem setWidth_ofBool_toNat (c : Bool) : ((BitVec.ofBool c).setWidth 8).toNat = c.toNat := by
  cases c <;> rfl

/-- The left shift vacates bit 0, so the carry that enters there is added (R172). -/
theorem rotateLeft_toNat (c : Bool) (v : Byte) :
    (v <<< 1 ||| (BitVec.ofBool c).setWidth 8).toNat = 2 * v.toNat % 256 + c.toNat := by
  have heven : 2 * v.toNat % 256 = (v.toNat % 128) <<< 1 := by
    rw [Nat.shiftLeft_eq]
    omega
  rw [BitVec.toNat_or, shiftLeft_one_toNat, setWidth_ofBool_toNat, heven,
    ← Nat.shiftLeft_add_eq_or_of_lt c.toNat_lt]

/-- The right shift vacates bit 7, so the carry that enters there adds 128 (R173). -/
theorem rotateRight_toNat (c : Bool) (v : Byte) :
    (v >>> 1 ||| (BitVec.ofBool c).setWidth 8 <<< 7).toNat = v.toNat / 2 + 128 * c.toNat := by
  have hlow : v.toNat / 2 < 2 ^ 7 := by
    have := v.isLt
    omega
  have hcarry : ((BitVec.ofBool c).setWidth 8 <<< 7).toNat = c.toNat <<< 7 := by
    cases c <;> rfl
  rw [BitVec.toNat_or, shiftRight_one_toNat, hcarry, Nat.or_comm, ← Nat.shiftLeft_add_eq_or_of_lt hlow,
    Nat.shiftLeft_eq]
  omega

/-- The bit a left shift puts out (R170, R172). -/
theorem getLsbD_seven (v : Byte) : v.getLsbD 7 = decide (128 ≤ v.toNat) :=
  v.msb_eq_getLsbD_last.symm.trans v.msb_eq_decide

/-- The bit a right shift puts out (R171, R173). -/
theorem getLsbD_zero (v : Byte) : v.getLsbD 0 = decide (v.toNat % 2 = 1) :=
  Nat.testBit_zero v.toNat

/-- The byte operation is `shift` on numbers: result and carry are `shift`'s, N and Z are from the result. -/
def ShiftsAs (op : ByteOp) (shift : Bool → Nat → Nat × Bool) : Prop :=
  ∀ (f : Flags) (v : Byte), (op f v).1.toNat = (shift f.c v.toNat).1 ∧
    (op f v).2 = { withNZ f (op f v).1 with c := (shift f.c v.toNat).2 }

/-- The common end of the four: N and Z are from the result, and C is the bit shifted out. -/
theorem shifted_flags (f : Flags) (r : Byte) (out : Bool) : (shifted f r out).2 = { withNZ f r with c := out } := by
  rw [shifted, setNZ_eq]
  rfl

/-- A row of R170 to R173 holds of an operation once its result and its bit shifted out are the row's. -/
theorem shiftsAs_shifted {result : Flags → Byte → Byte} {out : Byte → Bool} {shift : Bool → Nat → Nat × Bool}
    (hresult : ∀ f v, (result f v).toNat = (shift f.c v.toNat).1)
    (hout : ∀ c v, out v = (shift c v.toNat).2) : ShiftsAs (fun f v => shifted f (result f v) (out v)) shift := by
  intro f v
  refine ⟨hresult f v, ?_⟩
  rw [shifted_flags, hout f.c v]
  rfl

/-- Each of the four is the read-modify-write instruction of its row of the table, with the accumulator a target. -/
theorem exec_shift {p : (Operand → Instr) × (Bool → Nat → Nat × Bool)} (hp : p ∈ shiftTable) :
    ∃ op, ShiftsAs op p.2 ∧ ∀ o s, exec (p.1 o) s = readModifyWrite true op o s := by
  simp only [shiftTable, List.mem_cons, List.not_mem_nil, or_false] at hp
  rcases hp with rfl | rfl | rfl | rfl
  · exact ⟨aslByte, shiftsAs_shifted (fun _ => shiftLeft_one_toNat) fun _ => getLsbD_seven, fun _ _ => rfl⟩
  · exact ⟨lsrByte, shiftsAs_shifted (fun _ => shiftRight_one_toNat) fun _ => getLsbD_zero, fun _ _ => rfl⟩
  · exact ⟨rolByte, shiftsAs_shifted (fun f => rotateLeft_toNat f.c) fun _ => getLsbD_seven, fun _ _ => rfl⟩
  · exact ⟨rorByte, shiftsAs_shifted (fun f => rotateRight_toNat f.c) fun _ => getLsbD_zero, fun _ _ => rfl⟩

/-- Settles O38: the row's operation on the accumulator, on a cell, and the fault where there is no target. -/
theorem shiftsAndRotates : Obligations.ShiftsAndRotates := by
  refine ⟨encodedAs_of_legal nofun rfl rfl fun _ => decide_eq_true_iff,
    encodedAs_of_legal nofun rfl rfl fun _ => decide_eq_true_iff,
    encodedAs_of_legal nofun rfl rfl fun _ => decide_eq_true_iff,
    encodedAs_of_legal nofun rfl rfl fun _ => decide_eq_true_iff, fun p hp s => ?_⟩
  obtain ⟨op, hop, hexec⟩ := exec_shift hp
  refine ⟨?_, fun o ho hm => ?_, fun o ho hne => ?_⟩
  · obtain ⟨hvalue, hflags⟩ := hop s.flags s.a
    have ht := readModifyWrite_accumulator op s
    rw [hflags] at ht
    exact ⟨_, (hexec _ s).trans ht, hvalue, s.setA_setFlags_advance_changes_only_these _ _⟩
  · obtain ⟨t, ht, hbyte, hholds, hframe⟩ := readModifyWrite_cell true op hm ho
    obtain ⟨hvalue, hflags⟩ := hop s.flags (s.readByte (s.addressOf o))
    rw [hflags, ← hbyte] at hholds
    rw [← hbyte] at hvalue
    exact ⟨t, (hexec o s).trans ht, hvalue, hholds, hframe⟩
  · exact (hexec o s).trans (readModifyWrite_none true op s ho (.inr hne))

/-! ## CMP, CPX and CPY (R174 to R177) -/

/-- The asymmetric mapping of R174 on numbers. -/
theorem Flags.compare_eq (f : Flags) (r m : Byte) : f.compare r m =
    if r.toNat = m.toNat then { f with z := true, c := true }
    else if m.toNat < r.toNat then { f with n := true, c := true }
    else { f with n := false } := by
  simp only [Flags.compare, BitVec.toNat_inj]

/-- The three differ in the register they compare. -/
theorem exec_compare {p : (Operand → Instr) × (State → Byte)}
    (hp : p ∈ [(Instr.cmp, State.a), (Instr.cpx, State.x), (Instr.cpy, State.y)]) (o : Operand) (s : State) :
    exec (p.1 o) s = .next (if readable o then (s.setFlags (s.flags.compare (p.2 s) (s.operandByte o))).advance
      else s.raiseFault .operandMissing) := by
  simp only [List.mem_cons, List.not_mem_nil, or_false] at hp
  rcases hp with rfl | rfl | rfl
  · exact exec_cmp o s
  · exact exec_cpx o s
  · exact exec_cpy o s

/-- Settles O39: the common form of the three, by whether the operand is readable. -/
theorem compareResults : Obligations.CompareResults := by
  refine ⟨encodedAs_anyMode nofun rfl rfl fun _ => rfl,
    encodedAs_of_legal nofun rfl rfl fun _ => decide_eq_true_iff,
    encodedAs_of_legal nofun rfl rfl fun _ => decide_eq_true_iff, fun p hp o s => ?_⟩
  obtain ⟨hread, hmissing⟩ := outcomes_of_readable (exec_compare hp o s)
  rw [Flags.compare_eq] at hread
  exact ⟨fun ho => ⟨_, hread ho, s.setFlags_advance_changes_only_these _⟩, hmissing⟩

/-! ## INC and DEC (R178, R179) -/

/-- The byte operation adds `k` modulo 256, writes N and Z from the result and keeps every other flag. -/
def AddsWithNZ (op : ByteOp) (k : Nat) : Prop :=
  ∀ (f : Flags) (v : Byte), (op f v).1.toNat = (v.toNat + k) % 256 ∧ (op f v).2 = withNZ f (op f v).1

theorem incByte_adds : AddsWithNZ incByte 1 := fun f v => ⟨BitVec.toNat_add v 1, setNZ_eq f (v + 1)⟩

/-- One less is 255 more, modulo 256. -/
theorem decByte_adds : AddsWithNZ decByte 255 := by
  intro f v
  have hvalue : (v - 1).toNat = (v.toNat + 255) % 256 := by
    rw [BitVec.toNat_sub, Nat.add_comm]
    rfl
  exact ⟨hvalue, setNZ_eq f (v - 1)⟩

/-- INC and DEC are read-modify-write instructions that have no accumulator target. -/
theorem exec_cellIncrement {p : (Operand → Instr) × Nat} (hp : p ∈ [(Instr.inc, 1), (Instr.dec, 255)]) :
    ∃ op, AddsWithNZ op p.2 ∧ ∀ o s, exec (p.1 o) s = readModifyWrite false op o s := by
  simp only [List.mem_cons, List.not_mem_nil, or_false] at hp
  rcases hp with rfl | rfl
  · exact ⟨incByte, incByte_adds, fun _ _ => rfl⟩
  · exact ⟨decByte, decByte_adds, fun _ _ => rfl⟩

/-- Settles O40: the sum on a cell, and the fault where there is none. -/
theorem incrementsOfAMemoryCell : Obligations.IncrementsOfAMemoryCell := by
  refine ⟨encodedAs_of_legal nofun rfl rfl fun _ => decide_eq_true_iff,
    encodedAs_of_legal nofun rfl rfl fun _ => decide_eq_true_iff, fun p hp o s => ?_⟩
  obtain ⟨op, hop, hexec⟩ := exec_cellIncrement hp
  refine ⟨fun ho => (hexec o s).trans (readModifyWrite_none false op s ho (.inl rfl)), fun hm ho => ?_⟩
  obtain ⟨t, ht, hbyte, hholds, hframe⟩ := readModifyWrite_cell false op hm ho
  obtain ⟨hvalue, hflags⟩ := hop s.flags (s.readByte (s.addressOf o))
  rw [hflags, ← hbyte] at hholds
  rw [← hbyte] at hvalue
  exact ⟨t, (hexec o s).trans ht, hvalue, hholds, hframe⟩

/-! ## INX, INY, DEX and DEY (R180 to R183) -/

/-- INX and DEX put a sum in X, with N and Z from it. -/
theorem exec_incrementX {p : (Operand → Instr) × Nat} (hp : p ∈ [(Instr.inx, 1), (Instr.dex, 255)]) (o : Operand)
    (s : State) : ∃ r : Byte, r.toNat = (s.x.toNat + p.2) % 256 ∧
      exec (p.1 o) s = .next ((s.setX r).setFlags (withNZ s.flags r)).advance := by
  simp only [List.mem_cons, List.not_mem_nil, or_false] at hp
  rcases hp with rfl | rfl
  · obtain ⟨hvalue, hflags⟩ := incByte_adds s.flags s.x
    exact ⟨_, hvalue, by rw [exec_inx, hflags]⟩
  · obtain ⟨hvalue, hflags⟩ := decByte_adds s.flags s.x
    exact ⟨_, hvalue, by rw [exec_dex, hflags]⟩

/-- INY and DEY put a sum in Y, with N and Z from it. -/
theorem exec_incrementY {p : (Operand → Instr) × Nat} (hp : p ∈ [(Instr.iny, 1), (Instr.dey, 255)]) (o : Operand)
    (s : State) : ∃ r : Byte, r.toNat = (s.y.toNat + p.2) % 256 ∧
      exec (p.1 o) s = .next ((s.setY r).setFlags (withNZ s.flags r)).advance := by
  simp only [List.mem_cons, List.not_mem_nil, or_false] at hp
  rcases hp with rfl | rfl
  · obtain ⟨hvalue, hflags⟩ := incByte_adds s.flags s.y
    exact ⟨_, hvalue, by rw [exec_iny, hflags]⟩
  · obtain ⟨hvalue, hflags⟩ := decByte_adds s.flags s.y
    exact ⟨_, hvalue, by rw [exec_dey, hflags]⟩

/-- Settles O41: the sum in the register, and the frame of a write to it. -/
theorem incrementsOfAnIndexRegister : Obligations.IncrementsOfAnIndexRegister := by
  refine ⟨encodedAs_single nofun rfl rfl fun _ => rfl, encodedAs_single nofun rfl rfl fun _ => rfl,
    encodedAs_single nofun rfl rfl fun _ => rfl, encodedAs_single nofun rfl rfl fun _ => rfl,
    fun o s => ⟨fun p hp => ?_, fun p hp => ?_⟩⟩
  · obtain ⟨r, hvalue, hexec⟩ := exec_incrementX hp o s
    exact ⟨_, hexec, hvalue, s.setX_setFlags_advance_changes_only_these r _⟩
  · obtain ⟨r, hvalue, hexec⟩ := exec_incrementY hp o s
    exact ⟨_, hexec, hvalue, s.setY_setFlags_advance_changes_only_these r _⟩

end Sys2Proof.Machine

namespace Sys2Proof.Machine

/-! ## What the instructions of 44_load_store_transfer_stack.md share -/

/-- A byte moved into A, with N and Z from it, changes nothing else (R104, R105, R120). -/
theorem State.setA_setNZ_advance_changes_only_these (s : State) (v : Byte) :
    ((s.setA v).setFlags (s.flags.setNZ v)).advance.holds v s.x s.y s.sp16 (withNZ s.flags v) (s.pc + 1) ∧
    sameMemory s ((s.setA v).setFlags (s.flags.setNZ v)).advance ∧
    sameControl s ((s.setA v).setFlags (s.flags.setNZ v)).advance :=
  setNZ_eq s.flags v ▸ s.setA_setFlags_advance_changes_only_these v _

/-- A byte moved into X, with N and Z from it, changes nothing else (R104, R105, R120). -/
theorem State.setX_setNZ_advance_changes_only_these (s : State) (v : Byte) :
    ((s.setX v).setFlags (s.flags.setNZ v)).advance.holds s.a v s.y s.sp16 (withNZ s.flags v) (s.pc + 1) ∧
    sameMemory s ((s.setX v).setFlags (s.flags.setNZ v)).advance ∧
    sameControl s ((s.setX v).setFlags (s.flags.setNZ v)).advance :=
  setNZ_eq s.flags v ▸ s.setX_setFlags_advance_changes_only_these v _

/-- A byte moved into Y, with N and Z from it, changes nothing else (R104, R105, R120). -/
theorem State.setY_setNZ_advance_changes_only_these (s : State) (v : Byte) :
    ((s.setY v).setFlags (s.flags.setNZ v)).advance.holds s.a s.x v s.sp16 (withNZ s.flags v) (s.pc + 1) ∧
    sameMemory s ((s.setY v).setFlags (s.flags.setNZ v)).advance ∧
    sameControl s ((s.setY v).setFlags (s.flags.setNZ v)).advance :=
  setNZ_eq s.flags v ▸ s.setY_setFlags_advance_changes_only_these v _

/-- Writing SP16 and advancing changes nothing else (R104, R105). -/
theorem State.setSp16_advance_changes_only_these (s : State) (sp : Half) :
    (s.setSp16 sp).advance.holds s.a s.x s.y sp s.flags (s.pc + 1) ∧ sameMemory s (s.setSp16 sp).advance ∧
    sameControl s (s.setSp16 sp).advance :=
  ⟨⟨rfl, rfl, rfl, rfl, rfl, rfl⟩, fun _ => rfl, rfl, rfl, rfl, rfl, rfl, rfl⟩

/-! ## LDA, LDX and LDY (R200 to R202) -/

/-- Settles O42: by whether the operand is readable, with the frame of a byte moved into the register. -/
theorem loadResults : Obligations.LoadResults := by
  refine ⟨encodedAs_anyMode nofun rfl rfl fun _ => rfl, encodedAs_anyMode nofun rfl rfl fun _ => rfl,
    encodedAs_anyMode nofun rfl rfl fun _ => rfl, fun o s => ?_⟩
  obtain ⟨hlda, hldaMissing⟩ := outcomes_of_readable (exec_lda o s)
  obtain ⟨hldx, hldxMissing⟩ := outcomes_of_readable (exec_ldx o s)
  obtain ⟨hldy, hldyMissing⟩ := outcomes_of_readable (exec_ldy o s)
  refine ⟨fun ho => ⟨⟨_, hlda ho, s.setA_setNZ_advance_changes_only_these _⟩,
    ⟨_, hldx ho, s.setX_setNZ_advance_changes_only_these _⟩,
    ⟨_, hldy ho, s.setY_setNZ_advance_changes_only_these _⟩⟩, fun ho => ?_⟩
  simp only [List.forall_mem_cons]
  exact ⟨hldaMissing ho, hldxMissing ho, hldyMissing ho, nofun⟩

/-! ## STA, STX and STY (R203 to R205) -/

/-- The three differ in the register they store. -/
theorem exec_store {p : (Operand → Instr) × (State → Byte)}
    (hp : p ∈ [(Instr.sta, State.a), (Instr.stx, State.x), (Instr.sty, State.y)]) (o : Operand) (s : State) :
    exec (p.1 o) s = storeByte (p.2 s) o s := by
  simp only [List.mem_cons, List.not_mem_nil, or_false] at hp
  rcases hp with rfl | rfl | rfl <;> rfl

/-- A store to a canonical memory leaves the byte at the effective address and changes nothing else. -/
theorem storeByte_cell (v : Byte) {o : Operand} {s : State} {a : Half} (hm : s.mem.wf = true) (ha : s.ea o = some a) :
    ∃ t, storeByte v o s = .next t ∧ t.readByte a = v ∧ sameMemoryBut a s t ∧
      t.holds s.a s.x s.y s.sp16 s.flags (s.pc + 1) ∧ sameControl s t := by
  obtain ⟨ho, rfl⟩ := inMemory_of_ea ha
  have ht := storeByte_eq v o s
  rw [if_pos ho] at ht
  obtain ⟨hholds, hmem, hcontrol⟩ := s.writeByte_setFlags_advance_changes_only_these (s.addressOf o) v s.flags
  exact ⟨_, ht, State.readByte_writeByte_self hm _ v, hmem, hholds, hcontrol⟩

/-- A store in a mode that names no cell faults (R112). -/
theorem storeByte_none (v : Byte) {o : Operand} {s : State} (h : s.ea o = none) :
    storeByte v o s = .next (s.faultedWith .noStoreTarget) := by
  rw [storeByte_eq, if_neg (ne_true_of_eq_false (inMemory_of_ea_none h)), s.raiseFault_eq_faultedWith]

/-- Settles O43: the common form of the three, by whether the operand has an effective address. -/
theorem storeResults : Obligations.StoreResults := by
  refine ⟨encodedAs_anyMode nofun rfl rfl fun _ => rfl,
    encodedAs_of_legal nofun rfl rfl fun _ => decide_eq_true_iff,
    encodedAs_of_legal nofun rfl rfl fun _ => decide_eq_true_iff, fun p hp o s => ?_⟩
  rw [exec_store hp]
  exact ⟨fun hm a ha => storeByte_cell (p.2 s) hm ha, storeByte_none (p.2 s)⟩

/-! ## TAX, TXA, TAY, TYA, TSX and TXS (R206 to R211) -/

theorem State.sp_toNat (s : State) : s.sp.toNat = s.sp16.toNat % 256 :=
  BitVec.toNat_setWidth 8 s.sp16

/-- R211: the bits of X lie below the bit of page one, so that the union is a sum. -/
theorem pageOne_toNat (v : Byte) : (pageOne v).toNat = 0x0100 + v.toNat := by
  have hsum : 2 ^ 8 * 1 + v.toNat = 2 ^ 8 * 1 ||| v.toNat := Nat.two_pow_add_eq_or_of_lt v.isLt 1
  rw [pageOne, BitVec.toNat_or, BitVec.toNat_setWidth_of_le (by decide)]
  exact hsum.symm

/-- Settles O44: the frame of a byte moved into the register that each writes. -/
theorem transferResults : Obligations.TransferResults :=
  ⟨encodedAs_single nofun rfl rfl fun _ => rfl, encodedAs_single nofun rfl rfl fun _ => rfl,
    encodedAs_single nofun rfl rfl fun _ => rfl, encodedAs_single nofun rfl rfl fun _ => rfl,
    encodedAs_single nofun rfl rfl fun _ => rfl, fun o s =>
    ⟨⟨_, exec_tax o s, s.setX_setNZ_advance_changes_only_these s.a⟩,
     ⟨_, exec_txa o s, s.setA_setNZ_advance_changes_only_these s.x⟩,
     ⟨_, exec_tay o s, s.setY_setNZ_advance_changes_only_these s.a⟩,
     ⟨_, exec_tya o s, s.setA_setNZ_advance_changes_only_these s.y⟩,
     ⟨_, exec_tsx o s, s.sp_toNat, s.setX_setNZ_advance_changes_only_these s.sp⟩⟩⟩

/-- Settles O45: page one's sum, and the frame of a write to SP16. -/
theorem txsResult : Obligations.TxsResult :=
  ⟨encodedAs_single nofun rfl rfl fun _ => rfl, fun o s =>
    ⟨_, exec_txs o s, pageOne_toNat s.x, s.setSp16_advance_changes_only_these _⟩⟩

/-! ## PHA and PLA (R212, R213) -/

/-- An instruction that first tests SP16 against a limit faults there and has one outcome elsewhere. -/
theorem outcomes_of_stackLimit {answer : Result} {s t : State} {limit : Half} {c : FaultCode}
    (h : answer = .next (if s.sp16 = limit then s.raiseFault c else t)) :
    (s.sp16 ≠ limit → answer = .next t) ∧ (s.sp16 = limit → answer = .next (s.faultedWith c)) := by
  refine ⟨fun hne => ?_, fun heq => ?_⟩
  · rw [h, if_neg hne]
  · rw [h, if_pos heq, s.raiseFault_eq_faultedWith]

/-- Settles O46: by the test of SP16; the byte is written at the old SP16, and SP16 after it. -/
theorem phaResult : Obligations.PhaResult := by
  refine ⟨encodedAs_single nofun rfl rfl fun _ => rfl, fun o s => ?_⟩
  obtain ⟨hpush, hfull⟩ := outcomes_of_stackLimit (exec_pha o s)
  obtain ⟨hholds, -, hcontrol⟩ := (s.writeByte s.sp16 s.a).setSp16_advance_changes_only_these (s.sp16 - 1)
  exact ⟨fun hm hroom => ⟨_, hpush hroom, State.readByte_writeByte_self hm s.sp16 s.a,
    fun _ => s.readByte_writeByte_ne s.a, hholds, hcontrol⟩, hfull⟩

/-- Settles O47: by the test of SP16; the byte at the new SP16 is moved into A. -/
theorem plaResult : Obligations.PlaResult := by
  refine ⟨encodedAs_single nofun rfl rfl fun _ => rfl, fun o s => ?_⟩
  obtain ⟨hpull, hempty⟩ := outcomes_of_stackLimit (exec_pla o s)
  exact ⟨fun hbyte => ⟨_, hpull hbyte, (s.setSp16 (s.sp16 + 1)).setA_setNZ_advance_changes_only_these _⟩, hempty⟩

end Sys2Proof.Machine

namespace Sys2Proof.Machine

/-! ## Flag operations and system instructions: what the records of 45_flags_system.md share -/

/-- An opcode determines its instruction up to the record's other two fields (R76). -/
theorem Instr.eq_build_of_opcode {i : Instr} {op : Opcode} (h : i.opcode = op) :
    i = op.build i.operand i.labelName := by
  subst h
  cases i <;> rfl

/-- A running engine's step, if its instruction does not fault, ends with the post-instruction phase, whose draw is the
next one (R103). -/
theorem step_fetched_phaseRan {s u : State} {i : Instr} (hr : s.status = .running) (hi : s.program[s.pc]? = some i)
    (he : exec i s.beginStep = .next u) (hok : ∀ c k, u.status ≠ .faulted c k) (hdraw : u.drawIndex = s.drawIndex) :
    step s = .next u.postInstruction ∧ phaseRan s u.postInstruction := by
  have hstep := step_fetched hr hi he
  rw [finishStep_ok hok] at hstep
  have hentropy := u.readByte_postInstruction_entropy
  rw [hdraw] at hentropy
  exact ⟨hstep, hentropy, congrArg (· + 1) hdraw⟩

/-! ## CLC, SEC, CLI, SEI, CLV, CLD and SED (R230 to R236) -/

/-- Settles O56: each of the seven writes the flags only, and its flags are those before with one field set. -/
theorem flagOperations : Obligations.FlagOperations := by
  refine ⟨encodedAs_single nofun rfl rfl fun _ => rfl, encodedAs_single nofun rfl rfl fun _ => rfl,
    encodedAs_single nofun rfl rfl fun _ => rfl, encodedAs_single nofun rfl rfl fun _ => rfl,
    encodedAs_single nofun rfl rfl fun _ => rfl, encodedAs_single nofun rfl rfl fun _ => rfl,
    encodedAs_single nofun rfl rfl fun _ => rfl, fun p hp o s => ?_⟩
  have hexec : exec (p.1 o) s = .next (s.setFlags (p.2 s.flags)).advance := by
    simp only [List.mem_cons, List.not_mem_nil, or_false] at hp
    rcases hp with rfl | rfl | rfl | rfl | rfl | rfl | rfl <;> rfl
  exact ⟨_, hexec, s.setFlags_advance_changes_only_these _⟩

/-! ## NOP, LABEL and DRW (R237, R239, R240) -/

theorem exec_of_nop_or_label {i : Instr} (h : i.opcode = .nop ∨ i.opcode = .label) (s : State) :
    exec i s = .next s.advance := by
  obtain hnop | hlabel := h
  · rw [Instr.eq_build_of_opcode hnop]
    exact exec_nop _ s
  · rw [Instr.eq_build_of_opcode hlabel]
    exact exec_label _ s

theorem exec_of_drw {i : Instr} (h : i.opcode = .drw) (s : State) : exec i s = .next (s.setFrame true).advance := by
  rw [Instr.eq_build_of_opcode h]
  exact exec_drw _ s

/-- Settles O57: NOP and LABEL write the index only, DRW the frame indication too; none of them touches the status or
the count of draws, so a running engine's step has its phase. -/
theorem nopLabelAndDrw : Obligations.NopLabelAndDrw := by
  refine ⟨encodedAs_single nofun rfl rfl fun _ => rfl, encodedAs_single nofun rfl rfl fun _ => rfl, rfl, fun _ => rfl,
    fun i hop s => ⟨_, exec_of_nop_or_label hop s, s.setPc_changes_index_only _⟩, fun o s => ?_,
    fun s i hr hi hop => ?_⟩
  · obtain ⟨hholds, hmem, hcall, hprogram, hlabels, hstatus, -, hdraw⟩ :=
      (s.setFrame true).setPc_changes_index_only (s.pc + 1)
    exact ⟨_, exec_drw o s, rfl, hholds, hmem, hcall, hprogram, hlabels, hstatus, hdraw⟩
  · have hok : ∀ c k, s.status ≠ .faulted c k := fun _ _ => ne_of_eq_of_ne hr nofun
    obtain hquiet | hdrw := or_assoc.mpr hop
    · obtain ⟨hstep, hphase⟩ := step_fetched_phaseRan hr hi (exec_of_nop_or_label hquiet _) hok rfl
      exact ⟨_, hstep, rfl, hphase, fun hdrw => by simp [hdrw] at hquiet⟩
    · obtain ⟨hstep, hphase⟩ := step_fetched_phaseRan hr hi (exec_of_drw hdrw _) hok rfl
      exact ⟨_, hstep, rfl, hphase, fun _ => rfl⟩

/-! ## BRK (R238) -/

/-- A halt writes the status only. -/
theorem State.halt_changes_status_only (s : State) (r : HaltReason) :
    (s.halt r).holds s.a s.x s.y s.sp16 s.flags s.pc ∧ sameMemory s (s.halt r) ∧
    (s.halt r).callStack = s.callStack ∧ (s.halt r).program = s.program ∧ (s.halt r).labels = s.labels ∧
    (s.halt r).frame = s.frame ∧ (s.halt r).drawIndex = s.drawIndex :=
  ⟨⟨rfl, rfl, rfl, rfl, rfl, rfl⟩, fun _ => rfl, rfl, rfl, rfl, rfl, rfl⟩

/-- Settles O58: BRK's effect is the halt, which is no fault, so that its step has the phase (D33, D37). -/
theorem brkHalts : Obligations.BrkHalts := by
  refine ⟨encodedAs_single nofun rfl rfl fun _ => rfl,
    fun o s => ⟨_, exec_brk o s, rfl, s.halt_changes_status_only .brk⟩, fun s o hr hi => ?_⟩
  obtain ⟨hstep, hphase⟩ := step_fetched_phaseRan hr hi (exec_brk o _) nofun rfl
  exact ⟨_, hstep, rfl, rfl, hphase⟩

end Sys2Proof.Machine

namespace Sys2Proof.Machine

/-! ## The table of run-time faults (R250) -/

/-- R250's row of a fault: the instructions that raise it and the condition on the state. -/
@[simp] def State.tabledFault (s : State) (i : Instr) : FaultCode → Prop
  | .unresolvedLabel => i.opcode.isTransfer = true ∧ lookupLabel s.labels i.labelName = none
  | .stackOverflow => i.opcode = .pha ∧ s.sp16 = 0x00FF#16
  | .stackUnderflow => i.opcode = .pla ∧ s.sp16 = 0x01FF#16
  | .callStackEmpty => i.opcode = .rts ∧ s.callStack = []
  | .callStackOverflow => i.opcode = .jsr ∧ (lookupLabel s.labels i.labelName).isSome = true ∧
      Config.callStackDepth = some s.callStack.length
  | .operandMissing => i.operand.mode = .implied ∧
      (i.opcode ∈ [Opcode.and, .ora, .eor, .cmp, .lda, .ldx, .ldy] ∨
        (i.opcode = .adc ∨ i.opcode = .sbc) ∧ s.flags.d = false)
  | .noStoreTarget => i.opcode = .sta ∧ (i.operand.mode = .immediate ∨ i.operand.mode = .implied)
  | .rtiUnsupported => i.opcode = .rti
  | .decimalUnsupported => (i.opcode = .adc ∨ i.opcode = .sbc) ∧ s.flags.d = true

/-- The opcodes that stand in some row of R250's table. -/
def hasFaultRow (op : Opcode) : Bool :=
  op.isTransfer || op ∈ [Opcode.and, .ora, .eor, .cmp, .lda, .ldx, .ldy, .adc, .sbc, .sta, .pha, .pla, .rts, .rti]

theorem hasFaultRow_of_tabledFault {s : State} {i : Instr} {c : FaultCode} (h : s.tabledFault i c) :
    hasFaultRow i.opcode = true := by
  cases c with
  | unresolvedLabel =>
    obtain ⟨ht, -⟩ := h
    rw [hasFaultRow, ht, Bool.true_or]
  | stackOverflow | stackUnderflow | callStackEmpty | callStackOverflow | noStoreTarget =>
    obtain ⟨hop, -⟩ := h
    rw [hop]; rfl
  | rtiUnsupported => rw [h]; rfl
  | operandMissing =>
    obtain ⟨-, hop | ⟨hop | hop, -⟩⟩ := h
    · exact Bool.or_eq_true_iff.mpr (.inr (decide_eq_true (List.mem_append_left _ hop)))
    · rw [hop]; rfl
    · rw [hop]; rfl
  | decimalUnsupported =>
    obtain ⟨hop | hop, -⟩ := h
    · rw [hop]; rfl
    · rw [hop]; rfl

theorem not_tabledFault {i : Instr} (hi : hasFaultRow i.opcode = false) (s : State) (c : FaultCode) :
    ¬ s.tabledFault i c :=
  fun h => Bool.false_ne_true (hi.symm.trans (hasFaultRow_of_tabledFault h))

/-! ## The modes of a well-formed record (R69, R85, R86) -/

theorem mode_ne_of_illegal {i : Instr} {m : Mode} (hwf : i.wf = true) (hm : i.opcode.legal m = false) :
    i.operand.mode ≠ m := by
  rintro rfl
  simp [Instr.wf, Instr.legal, hm] at hwf

/-- Relative stands with a control transfer only. -/
theorem mode_ne_relative {i : Instr} (hwf : i.wf = true) (hi : i.opcode.isTransfer = false) :
    i.operand.mode ≠ .relative := by
  intro hm
  have ho : i.operand = .relative := by
    revert hm
    cases i.operand <;> simp [Operand.mode]
  obtain ⟨-, hs⟩ := Bool.and_eq_true_iff.mp hwf
  unfold Instr.spelled at hs
  split at hs
  · cases ho
  · simp [ho, hi] at hs

/-! ## What the test before an instruction's writes finds (R107) -/

/-- Relative aside, only Implied has no operand to read (R111). -/
theorem readOperand_error_iff (s : State) {o : Operand} (ho : o.mode ≠ .relative) (c : FaultCode) :
    s.readOperand o = .error c ↔ o.mode = .implied ∧ FaultCode.operandMissing = c := by
  cases hr : readable o
  · have hm : o.mode = .implied := by cases o <;> simp_all [readable, Operand.mode]
    simp [readOperand_unreadable s hr, hm]
  · have hm : o.mode ≠ .implied := by cases o <;> simp_all [readable, Operand.mode]
    simp [readOperand_readable s hr, hm]

/-- Relative aside, only Immediate and Implied name no cell (R112). -/
theorem storeAddr_error_iff (s : State) {o : Operand} (ho : o.mode ≠ .relative) (c : FaultCode) :
    s.storeAddr o = .error c ↔ (o.mode = .immediate ∨ o.mode = .implied) ∧ FaultCode.noStoreTarget = c := by
  cases hi : inMemory o
  · have hm : o.mode = .immediate ∨ o.mode = .implied := by cases o <;> simp_all [inMemory, Operand.mode]
    simp [storeAddr_notInMemory s hi, hm]
  · have hm : ¬ (o.mode = .immediate ∨ o.mode = .implied) := by cases o <;> simp_all [inMemory, Operand.mode]
    simp [storeAddr_inMemory s hi, hm]

/-- A read-modify-write instruction has a target in every mode that names a cell, and in Implied where that names the
accumulator (R113). -/
theorem rmwTarget_ne_error (s : State) {acc : Bool} {o : Operand} (hr : o.mode ≠ .relative)
    (hi : o.mode ≠ .immediate) (ha : acc = true ∨ o.mode ≠ .implied) (c : FaultCode) :
    s.rmwTarget acc o ≠ .error c := by
  by_cases ho : o = .implied
  · subst ho
    obtain rfl : acc = true := ha.resolve_right (fun h => h rfl)
    simp [rmwTarget_accumulator]
  · have hm : inMemory o = true := by cases o <;> simp_all [inMemory, Operand.mode]
    simp [rmwTarget_inMemory s acc hm]

theorem target_error_iff (s : State) (l : Text) (c : FaultCode) :
    s.target l = .error c ↔ lookupLabel s.labels l = none ∧ FaultCode.unresolvedLabel = c := by
  cases hk : lookupLabel s.labels l with
  | none => simp [target_unresolved hk]
  | some k => simp [target_found hk]

/-! ## The fault an instruction ends in, by the shape of its meaning -/

/-- An instruction that goes on to a running state once its test has passed faults exactly with what the test found. -/
theorem faulted_iff_of_test {s t : State} {α : Type} {test : Except FaultCode α} {u : α → State}
    (h : orFault s test (fun v => .next (u v)) = .next t) (hu : ∀ v, (u v).status = .running) (c : FaultCode) :
    t.status = .faulted c s.pc ↔ test = .error c := by
  cases test with
  | error d => cases h; simp
  | ok v => cases h; simp [hu v]

/-- ADC and SBC test D before they read their operand (R255). -/
theorem faulted_iff_of_binaryOnly {s t : State} {o : Operand} {r : Byte → Byte → Byte}
    {f : Flags → Byte → Byte → Flags} (h : binaryOnly s (accumulate r f o) = .next t) (hr : s.status = .running)
    (ho : o.mode ≠ .relative) (c : FaultCode) :
    t.status = .faulted c s.pc ↔ s.flags.d = true ∧ FaultCode.decimalUnsupported = c ∨
      s.flags.d = false ∧ o.mode = .implied ∧ FaultCode.operandMissing = c := by
  cases hd : s.flags.d
  · have hread : accumulate r f o s = .next t := by simpa [binaryOnly, hd] using h
    simp [faulted_iff_of_test hread (fun _ => hr), readOperand_error_iff s ho]
  · have ht : t = s.raiseFault .decimalUnsupported := by simpa [binaryOnly, hd] using h.symm
    simp [ht]

/-- PHA and PLA test SP16 against a limit, JSR the call stack against its capacity. -/
theorem faulted_iff_of_limit {s t u : State} {p : Prop} [Decidable p] {d : FaultCode} {answer : Result}
    (ha : answer = .next (if p then s.raiseFault d else u)) (h : answer = .next t) (hu : u.status = .running)
    (c : FaultCode) : t.status = .faulted c s.pc ↔ p ∧ d = c := by
  obtain rfl := Host.Outcome.next.inj (h.symm.trans ha)
  split <;> simp_all

/-- For a well-formed instruction of a running engine the table is exact. The cases are the shapes of the meanings; the
last five groups stand in no row: the verifier refuses the modes in which four of them would fault (R85), and the fifth
tests nothing. -/
theorem exec_faulted_iff {i : Instr} {s t : State} (hwf : i.wf = true) (hr : s.status = .running)
    (h : exec i s = .next t) (c : FaultCode) : t.status = .faulted c s.pc ↔ s.tabledFault i c := by
  cases i with
  | bcc o l | bcs o l | beq o l | bne o l | bmi o l | bpl o l | bvc o l | bvs o l =>
    rw [faulted_iff_of_test h (fun _ => by split <;> exact hr), target_error_iff]
    cases c <;> simp [Instr.opcode, Instr.labelName, Opcode.isTransfer]
  | jmp o l =>
    rw [faulted_iff_of_test h (fun _ => hr), target_error_iff]
    cases c <;> simp [Instr.opcode, Instr.labelName, Opcode.isTransfer]
  | jsr o l =>
    cases hk : lookupLabel s.labels l with
    | none =>
      cases (exec_transfer_unresolved (by simp [transferTable]) hk o).symm.trans h
      cases c <;> simp [State.faultedWith, Instr.opcode, Instr.labelName, Opcode.isTransfer, hk]
    | some k =>
      rw [faulted_iff_of_limit (exec_jsr_found hk o) h hr]
      cases c <;> simp [Instr.opcode, Instr.labelName, hk]
  | adc o | sbc o =>
    rw [faulted_iff_of_binaryOnly h hr (mode_ne_relative hwf rfl)]
    cases c <;> simp [Instr.opcode, Instr.operand, Opcode.isTransfer, and_comm]
  | and o | ora o | eor o | cmp o | lda o | ldx o | ldy o =>
    rw [faulted_iff_of_test h (fun _ => hr), readOperand_error_iff (o := o) s (mode_ne_relative hwf rfl)]
    cases c <;> simp [Instr.opcode, Instr.operand, Opcode.isTransfer]
  | sta o =>
    rw [faulted_iff_of_test h (fun _ => hr), storeAddr_error_iff (o := o) s (mode_ne_relative hwf rfl)]
    cases c <;> simp [Instr.opcode, Instr.operand, Opcode.isTransfer]
  | pha o =>
    rw [faulted_iff_of_limit (exec_pha o s) h hr]
    cases c <;> simp [Instr.opcode, Opcode.isTransfer, Config.stackLimit]
  | pla o =>
    rw [faulted_iff_of_limit (exec_pla o s) h hr]
    cases c <;> simp [Instr.opcode, Opcode.isTransfer, Config.stackTop]
  | rts o =>
    cases hcs : s.callStack with
    | nil =>
      cases (exec_rts_empty hcs o).symm.trans h
      cases c <;> simp [State.faultedWith, Instr.opcode, Opcode.isTransfer, hcs]
    | cons j cs =>
      cases (exec_rts_return hcs o).symm.trans h
      cases c <;> simp [Instr.opcode, Opcode.isTransfer, hcs, hr]
  | rti o =>
    cases h
    cases c <;> simp [Instr.opcode, Opcode.isTransfer]
  | bit o | cpx o | cpy o =>
    rw [faulted_iff_of_test h (fun _ => hr), readOperand_error_iff (o := o) s (mode_ne_relative hwf rfl)]
    exact iff_of_false (fun ⟨hm, _⟩ => mode_ne_of_illegal hwf rfl hm) (not_tabledFault rfl s c)
  | stx o | sty o =>
    rw [faulted_iff_of_test h (fun _ => hr), storeAddr_error_iff (o := o) s (mode_ne_relative hwf rfl)]
    exact iff_of_false (fun ⟨hm, _⟩ => hm.elim (mode_ne_of_illegal hwf rfl) (mode_ne_of_illegal hwf rfl))
      (not_tabledFault rfl s c)
  | asl o | lsr o | rol o | ror o =>
    rw [faulted_iff_of_test h (fun v => by cases v <;> exact hr)]
    exact iff_of_false (rmwTarget_ne_error s (mode_ne_relative hwf rfl) (mode_ne_of_illegal hwf rfl) (.inl rfl) c)
      (not_tabledFault rfl s c)
  | inc o | dec o =>
    rw [faulted_iff_of_test h (fun v => by cases v <;> exact hr)]
    exact iff_of_false (rmwTarget_ne_error s (mode_ne_relative hwf rfl) (mode_ne_of_illegal hwf rfl)
      (.inr (mode_ne_of_illegal hwf rfl)) c) (not_tabledFault rfl s c)
  | brk o | clc o | cld o | cli o | clv o | dex o | dey o | drw o | inx o | iny o | nop o | sec o | sed o | sei o
  | tax o | tay o | tsx o | txa o | txs o | tya o | label n =>
    cases h
    exact iff_of_false (by simp [hr]) (not_tabledFault rfl s c)

/-- Settles O24: each of the nine equivalences is the table's row of its code. -/
theorem faultsAreRaisedExactlyAsTabled : Obligations.FaultsAreRaisedExactlyAsTabled := by
  refine ⟨fun i s t hwf hr h => ?_, rfl⟩
  have hrow := exec_faulted_iff hwf hr h
  exact ⟨hrow .unresolvedLabel, hrow .stackOverflow, hrow .stackUnderflow, hrow .callStackEmpty,
    hrow .callStackOverflow, hrow .operandMissing, hrow .noStoreTarget, hrow .rtiUnsupported,
    hrow .decimalUnsupported⟩

end Sys2Proof.Machine

namespace Sys2Proof.Machine

/-! ## Hexadecimal texts and the nine numeric forms (R63, R64) -/

/-- A text of digits continues the value read before it in base 16, the first digit most significant. -/
theorem hexFrom_digits {t : Text} {ds : List Nat} (h : t.map hexDigit = ds.map some) (acc : Nat) :
    hexFrom acc t = .ok (16 ^ ds.length * acc + Nat.ofDigits 16 ds.reverse) := by
  induction t generalizing ds acc with
  | nil =>
    obtain rfl : ds = [] := by simpa using h.symm
    simp [hexFrom]
  | cons c t ih =>
    cases ds with
    | nil => simp at h
    | cons d ds =>
      obtain ⟨hc, ht⟩ := List.cons.inj h
      simp only [hexFrom, hc, ih ht, List.reverse_cons, Nat.ofDigits_append, List.length_reverse,
        Nat.ofDigits_singleton, List.length_cons]
      congr 1
      ring

/-- The digits are the characters of the two alphabets, and no others. -/
theorem hexDigit_eq_none_iff (c : Char) : hexDigit c = none ↔ c ∉ "0123456789ABCDEFabcdef".toList := by
  constructor
  · intro h hc
    have hdigits : "0123456789ABCDEFabcdef".toList.all (fun c => (hexDigit c).isSome) = true := by decide
    have hsome := List.all_eq_true.mp hdigits c hc
    rw [h] at hsome
    exact Bool.false_ne_true hsome
  · intro hc
    have hcodes : c.toNat ∉ "0123456789ABCDEFabcdef".toList.map Char.toNat := fun hmem => by
      obtain ⟨x, hx, hxc⟩ := List.mem_map.mp hmem
      exact hc (Char.toNat_inj.mp hxc ▸ hx)
    have hranges : "0123456789ABCDEFabcdef".toList.map Char.toNat =
        List.range' 0x30 10 ++ List.range' 0x41 6 ++ List.range' 0x61 6 := by decide
    simp only [hranges, List.mem_append, List.mem_range'_1] at hcodes
    unfold hexDigit
    rw [if_neg (by omega), if_neg (by omega), if_neg (by omega)]

theorem hexOperand_eq_map (n : Nat) (form : BitVec n → Operand) (t : Text) :
    hexOperand n form t = (hexFrom 0 t).map fun v => form (BitVec.ofNat n v) := by
  unfold hexOperand
  cases hexFrom 0 t <;> rfl

/-- A text of one of the nine shapes is read as the shape's operand of the digits' value, but that `$hh,X` and `$hh,Y`
are no `$hhhh`. -/
theorem classify_numericForm {f : NumericForm} (hf : f ∈ numericForms) (transfer : Bool) {ds : Text}
    (hlen : ds.length = f.digits) (hshape : f.tail = [] → ds.drop 2 ≠ [',', 'X'] ∧ ds.drop 2 ≠ [',', 'Y']) :
    classify transfer (f.lead ++ ds ++ f.tail) = (hexFrom 0 ds).map f.operand := by
  simp only [numericForms, List.mem_cons, List.not_mem_nil, or_false] at hf
  rcases hf with rfl | rfl | rfl | rfl | rfl | rfl | rfl | rfl | rfl
  case inr.inr.inr.inr.inl =>
    obtain ⟨p, q, h, l, rfl⟩ := List.length_eq_four.mp hlen
    obtain ⟨hx, hy⟩ := hshape rfl
    simp only [List.drop_succ_cons, List.drop_zero, ne_eq, List.cons.injEq, and_true] at hx hy
    simp [classify, classifyDollar, hexOperand_eq_map, hx, hy]
  case inr.inr.inr.inr.inr.inl | inr.inr.inr.inr.inr.inr.inl =>
    obtain ⟨p, q, h, l, rfl⟩ := List.length_eq_four.mp hlen
    simp [classify, classifyDollar, hexOperand_eq_map]
  all_goals
    obtain ⟨h, l, rfl⟩ := List.length_eq_two.mp hlen
    simp [classify, classifyImmediate, classifyDollar, classifyParen, hexOperand_eq_map]

/-- A digit is no comma. -/
theorem drop_two_ne_of_digits {t : Text} {ds : List Nat} (h : t.map hexDigit = ds.map some) (c : Char) :
    t.drop 2 ≠ [',', c] := by
  intro ht
  have hmem : hexDigit ',' ∈ t.map hexDigit :=
    List.mem_map_of_mem (List.mem_of_mem_drop (i := 2) (ht ▸ List.mem_cons_self))
  rw [h] at hmem
  have hnone : hexDigit ',' = none := by decide
  simp [hnone] at hmem

/-- With digits in the digits' places a form is read as the operand of the number they spell. -/
theorem classify_digits {f : NumericForm} (hf : f ∈ numericForms) (transfer : Bool) {t : Text} {ds : List Nat}
    (hlen : t.length = f.digits) (hds : t.map hexDigit = ds.map some) :
    classify transfer (f.lead ++ t ++ f.tail) = .ok (f.operand (Nat.ofDigits 16 ds.reverse)) := by
  rw [classify_numericForm hf transfer hlen fun _ => ⟨drop_two_ne_of_digits hds 'X', drop_two_ne_of_digits hds 'Y'⟩,
    hexFrom_digits hds, Nat.mul_zero, Nat.zero_add]
  rfl

/-- Settles O6: the digits' values by evaluation, a text's value by induction on it, and each form by its shape. -/
theorem hexTextHasItsBaseSixteenValue : Obligations.HexTextHasItsBaseSixteenValue := by
  refine ⟨by decide, by decide, hexDigit_eq_none_iff, fun t ds _ hds => ?_, fun t ht => hexFrom_badHex ht 0,
    fun f hf transfer t ds => classify_digits hf transfer⟩
  rw [hexFrom_digits hds, Nat.mul_zero, Nat.zero_add]

end Sys2Proof.Machine

namespace Sys2Proof.Machine

/-! ## Trimming and stripping (R7) -/

theorem trim_eq_rdropWhile (t : Text) : trim t = (t.dropWhile isSpace).rdropWhile isSpace := rfl

theorem trim_sublist (t : Text) : (trim t).Sublist t :=
  (List.rdropWhile_prefix isSpace _).sublist.trans (List.dropWhile_sublist _)

theorem mem_stripWs {t : Text} {c : Char} : c ∈ stripWs t ↔ c ∈ t ∧ isSpace c = false := by
  simp [stripWs]

theorem stripWs_dropWhile (t : Text) : stripWs (t.dropWhile isSpace) = stripWs t := by
  induction t with
  | nil => rfl
  | cons c t ih =>
    cases hc : isSpace c
    · simp [hc]
    · simpa [stripWs, hc] using ih

theorem stripWs_reverse (t : Text) : stripWs t.reverse = (stripWs t).reverse := List.filter_reverse

theorem stripWs_trim (t : Text) : stripWs (trim t) = stripWs t := by
  rw [trim, stripWs_reverse, stripWs_dropWhile, stripWs_reverse, List.reverse_reverse, stripWs_dropWhile]

theorem head?_dropWhile_isSpace (t : Text) : (t.dropWhile isSpace).head? = (stripWs t).head? := by
  induction t with
  | nil => rfl
  | cons c t ih =>
    cases hc : isSpace c
    · simp [stripWs, hc]
    · simpa [stripWs, hc] using ih

/-- A trimmed text begins with its first character that is no whitespace. -/
theorem head?_trim (t : Text) : (trim t).head? = (stripWs t).head? := by
  cases ht : trim t with
  | nil => rw [← stripWs_trim, ht]; rfl
  | cons c r =>
    obtain ⟨q, hq⟩ : trim t <+: t.dropWhile isSpace := List.rdropWhile_prefix ..
    rw [← head?_dropWhile_isSpace, ← hq, ht]
    rfl

/-- A trimmed text ends with its last character that is no whitespace. -/
theorem getLast?_trim (t : Text) : (trim t).getLast? = (stripWs t).getLast? := by
  rw [trim, List.getLast?_reverse, head?_dropWhile_isSpace, stripWs_reverse, List.head?_reverse, stripWs_dropWhile]

/-- Nothing is trimmed exactly where the first and the last character are no whitespace. -/
theorem trim_eq_self_iff (t : Text) :
    trim t = t ↔ (∀ c ∈ t.head?, isSpace c = false) ∧ ∀ c ∈ t.getLast?, isSpace c = false := by
  constructor
  · intro h
    rw [← h, head?_trim, getLast?_trim]
    exact ⟨fun c hc => (mem_stripWs.mp (List.mem_of_head? hc)).2,
      fun c hc => (mem_stripWs.mp (List.mem_of_getLast? hc)).2⟩
  · rintro ⟨hhead, hlast⟩
    have hfront : t.dropWhile isSpace = t := by
      cases t with
      | nil => rfl
      | cons c t => rw [List.dropWhile_cons_of_neg (by simp [hhead c rfl])]
    rw [trim_eq_rdropWhile, hfront, List.rdropWhile_eq_self_iff]
    intro hne
    simp [hlast _ (List.getLast?_eq_some_getLast hne)]

theorem trim_trim (t : Text) : trim (trim t) = trim t := by
  rw [trim_eq_self_iff, head?_trim, getLast?_trim]
  exact ⟨fun c hc => (mem_stripWs.mp (List.mem_of_head? hc)).2,
    fun c hc => (mem_stripWs.mp (List.mem_of_getLast? hc)).2⟩

theorem trim_cons_space (t : Text) : trim (' ' :: t) = trim t := rfl

theorem stripWs_cons_space (t : Text) : stripWs (' ' :: t) = stripWs t := rfl

theorem trim_all_isAscii {t : Text} (h : t.all isAscii = true) : (trim t).all isAscii = true :=
  List.all_eq_true.mpr fun c hc => List.all_eq_true.mp h c ((trim_sublist t).subset hc)

/-! ## The Reader's lines (R60) -/

theorem cutLine_of_no_semicolon {t : Text} (h : ';' ∉ t) : cutLine t = trim t := by
  have hall : ∀ c ∈ t, (c != ';') = true := fun c hc => bne_iff_ne.mpr fun e => h (e ▸ hc)
  rw [cutLine, List.takeWhile_eq_self_iff.mpr hall]

theorem no_semicolon_cutLine (t : Text) : ';' ∉ cutLine t := fun hmem => by
  simpa using List.mem_takeWhile_imp ((trim_sublist _).subset hmem)

/-- What follows the first semicolon is cut. -/
theorem cutLine_comment {t : Text} (h : ';' ∉ t) (c : Text) : cutLine (t ++ ';' :: c) = cutLine t := by
  have hall : ∀ c ∈ t, (c != ';') = true := fun c hc => bne_iff_ne.mpr fun e => h (e ▸ hc)
  rw [cutLine, cutLine, List.takeWhile_append_of_pos hall, List.takeWhile_eq_self_iff.mpr hall]
  simp

theorem cutLine_cutLine (t : Text) : cutLine (cutLine t) = cutLine t := by
  rw [cutLine_of_no_semicolon (no_semicolon_cutLine t), cutLine, trim_trim]

theorem mem_deliverLines {ls : List Text} {l : Text} (h : l ∈ deliverLines ls) :
    l ≠ [] ∧ ∃ t, l = cutLine t := by
  simp only [deliverLines, List.mem_filter, List.mem_map, bne_iff_ne] at h
  obtain ⟨⟨t, -, ht⟩, hne⟩ := h
  exact ⟨hne, t, ht.symm⟩

theorem deliverLines_singleton (t : Text) : deliverLines [t] = if cutLine t = [] then [] else [cutLine t] := by
  by_cases h : cutLine t = [] <;> simp [deliverLines, h]

/-- Settles O3: a delivered line is a cut one, whose cut is itself; a line without a semicolon is only trimmed; and a
comment is no part of the cut. -/
theorem deliveredLinesAreTrimmedAndCut : Obligations.DeliveredLinesAreTrimmedAndCut := by
  refine ⟨fun ls l hl => ?_, fun l hl => ?_, fun l c hl => ?_⟩
  · obtain ⟨hne, t, rfl⟩ := mem_deliverLines hl
    refine ⟨?_, no_semicolon_cutLine t⟩
    rw [delivered, cutLine_cutLine, bne_iff_ne.mpr hne, beq_self_eq_true, Bool.and_self]
  · rw [deliverLines_singleton, cutLine_of_no_semicolon hl]
  · rw [deliverLines_singleton, deliverLines_singleton, cutLine_comment hl]

/-- A delivered line is not empty and is trimmed. -/
theorem trim_of_delivered {t : Text} (h : delivered t = true) : t ≠ [] ∧ trim t = t := by
  simp only [delivered, Bool.and_eq_true, bne_iff_ne, beq_iff_eq] at h
  obtain ⟨hne, hcut⟩ := h
  refine ⟨hne, ?_⟩
  rw [← hcut, cutLine, trim_trim]

end Sys2Proof.Machine

namespace Sys2Proof.Machine

/-! ## The decoder (R62, R70, R72) -/

/-- The fixed opcode name table is closed, and its names are distinct (R70). -/
theorem opcodeOf_eq_some_iff (m : Text) (op : Opcode) : opcodeOf m = some op ↔ op ≠ .label ∧ op.chars = m := by
  constructor
  · intro h
    have hnamed : ∀ op ∈ Opcode.named, op ≠ .label := by decide
    have hchars : (op.chars == m) = true := List.find?_some (p := fun op : Opcode => op.chars == m) h
    exact ⟨hnamed op (List.mem_of_find?_eq_some h), eq_of_beq hchars⟩
  · rintro ⟨hop, rfl⟩
    exact opcodeOf_chars hop

theorem decode_nonAscii {line : Text} (h : ∃ c ∈ line, 0x80 ≤ c.toNat) : decode line = .error .nonAscii := by
  obtain ⟨c, hc, hcode⟩ := h
  have hline : line.all isAscii = false := List.all_eq_false.mpr ⟨c, hc, by simpa [isAscii] using hcode⟩
  rw [decode, hline, if_neg Bool.false_ne_true]

theorem all_isAscii {t : Text} (h : ∀ c ∈ t, c.toNat < 0x80) : t.all isAscii = true := by
  simpa [isAscii] using h

/-- A line that ends with a colon is a label line whatever stands before it (R62). -/
theorem decode_label {t : Text} (h : t.all isAscii = true) : decode (t ++ [':']) = .ok (.label (trim t)) := by
  have hline : (t ++ [':']).all isAscii = true := by rw [List.all_append, h]; rfl
  rw [decode, if_pos hline, if_pos List.getLast?_concat, List.dropLast_concat]

/-- Any other ASCII line is an instruction line. -/
theorem decode_eq_decodeInstruction {line : Text} (hascii : line.all isAscii = true)
    (hcolon : line.getLast? ≠ some ':') : decode line = decodeInstruction line := by
  rw [decode, if_pos hascii, if_neg hcolon]

/-- Settles O7: a colon at the end makes a label line, and the record of a LABEL is by definition. -/
theorem labelLinesAreRecognisedFirst : Obligations.LabelLinesAreRecognisedFirst :=
  fun _ h => ⟨decode_label (all_isAscii h), rfl⟩

/-- An instruction line without a mnemonic at its start is an unknown mnemonic (R72). -/
theorem decodeInstruction_unknown {line : Text}
    (h : line.length < 3 ∨ ∀ op : Opcode, op = .label ∨ op.chars ≠ line.take 3) :
    decodeInstruction line = .error .unknownMnemonic := by
  unfold decodeInstruction
  split
  · next a b c f =>
    obtain hshort | hnone := h
    · simp only [List.length_cons] at hshort
      omega
    · have hop : opcodeOf [a, b, c] = none := Option.eq_none_iff_forall_ne_some.mpr fun op hop => by
        obtain ⟨hne, hchars⟩ := (opcodeOf_eq_some_iff _ op).mp hop
        exact (hnone op).elim hne fun hdiff => hdiff hchars
      rw [hop]
  · rfl

/-- A mnemonic and an ASCII field that does not end with a colon are an instruction line (R61, R62). -/
theorem mnemonic_line {op : Opcode} {field : Text} (hop : op ≠ .label) (hascii : field.all isAscii = true)
    (hcolon : field.getLast? ≠ some ':') :
    (op.chars ++ field).all isAscii = true ∧ (op.chars ++ field).getLast? ≠ some ':' := by
  obtain ⟨a, b, c, habc, hall, hc⟩ := op.chars_eq_three hop
  rw [habc, List.all_append, hall, hascii, List.getLast?_append]
  refine ⟨rfl, ?_⟩
  cases hf : field.getLast? with
  | none => simpa using hc
  | some x => simpa [hf] using hcolon

/-- After a mnemonic the lexer decides (R72). -/
theorem decodeInstruction_mnemonic {op : Opcode} (hop : op ≠ .label) (field : Text) :
    decodeInstruction (op.chars ++ field) = (classify op.isTransfer (stripWs field)).map fun o =>
      op.build o (if op.isTransfer then trim field else []) := by
  obtain ⟨a, b, c, habc, -⟩ := op.chars_eq_three hop
  have hopcode : opcodeOf [a, b, c] = some op := habc ▸ opcodeOf_chars hop
  rw [habc]
  simp only [List.cons_append, List.nil_append, decodeInstruction, hopcode]
  cases classify op.isTransfer (stripWs field) <;> rfl

/-- After a mnemonic the lexer's error is the decoder's (R72). -/
theorem decode_mnemonic_error {op : Opcode} {field : Text} {e : DecodeError} (hop : op ≠ .label)
    (hascii : field.all isAscii = true) (hcolon : field.getLast? ≠ some ':')
    (he : classify op.isTransfer (stripWs field) = .error e) : decode (op.chars ++ field) = .error e := by
  obtain ⟨hline, hlast⟩ := mnemonic_line hop hascii hcolon
  rw [decode_eq_decodeInstruction hline hlast, decodeInstruction_mnemonic hop, he]
  rfl

/-- What an instruction line that decodes is made of: a mnemonic, and a field that the lexer reads (R72). -/
theorem decodeInstruction_eq_ok {line : Text} {i : Instr} (h : decodeInstruction line = .ok i) :
    ∃ (op : Opcode) (field : Text) (o : Operand), op ≠ .label ∧ line = op.chars ++ field ∧
      classify op.isTransfer (stripWs field) = .ok o ∧
      i = op.build o (if op.isTransfer then trim field else []) := by
  match line, h with
  | a :: b :: c :: field, h =>
    cases hop : opcodeOf [a, b, c] with
    | none => simp [decodeInstruction, hop] at h
    | some op =>
      obtain ⟨hne, hchars⟩ := (opcodeOf_eq_some_iff _ op).mp hop
      cases ho : classify op.isTransfer (stripWs field) with
      | error e => simp [decodeInstruction, hop, ho] at h
      | ok o =>
        refine ⟨op, field, o, hne, by rw [hchars]; rfl, ho, ?_⟩
        simpa [decodeInstruction, hop, ho] using h.symm

/-- What a line that decodes is: a label line, or an instruction line (R72). -/
theorem decode_eq_ok {line : Text} {i : Instr} (h : decode line = .ok i) : line.all isAscii = true ∧
    (i = .label (trim line.dropLast) ∨ line.getLast? ≠ some ':' ∧ decodeInstruction line = .ok i) := by
  unfold decode at h
  split at h
  · next hascii =>
    refine ⟨hascii, ?_⟩
    split at h
    · exact .inl (Except.ok.inj h).symm
    · next hcolon => exact .inr ⟨hcolon, h⟩
  · cases h

/-! ## The operand lexer's refusals and its label references (R65 to R69) -/

theorem classify_dollar (transfer : Bool) (t : Text) : classify transfer ('$' :: t) = classifyDollar t := by
  simp [classify]

theorem classify_paren (transfer : Bool) (t : Text) : classify transfer ('(' :: t) = classifyParen t := by
  simp [classify]

/-- An operand that begins as no numeric form is a label reference of a control transfer, or malformed (R69). -/
theorem classify_other (transfer : Bool) {c : Char} (hc : c ∉ ['#', '$', '(']) (t : Text) :
    classify transfer (c :: t) = if transfer then .ok .relative else .error .malformedOperand := by
  simp only [List.mem_cons, List.not_mem_nil, or_false, not_or] at hc
  obtain ⟨hhash, hdollar, hparen⟩ := hc
  rw [classify, if_neg hhash, if_neg hdollar, if_neg hparen]

theorem classifyDollar_malformed {t : Text}
    (h : ∀ f ∈ numericForms, ∀ ds : Text, ds.length = f.digits → '$' :: t ≠ f.lead ++ ds ++ f.tail) :
    classifyDollar t = .error .malformedOperand := by
  simp only [numericForms, List.forall_mem_cons] at h
  obtain ⟨-, hzp, -, -, habs, habsX, habsY, -⟩ := h
  unfold classifyDollar
  split
  · next h l => exact absurd rfl (hzp [h, l] rfl)
  · next h l c s => exact absurd rfl (habs [h, l, c, s] rfl)
  · next p q h l c s =>
    split
    · next hc =>
      subst hc
      rw [if_neg (by rintro rfl; exact habsX [p, q, h, l] rfl rfl),
        if_neg (by rintro rfl; exact habsY [p, q, h, l] rfl rfl)]
    · rfl
  · rfl

theorem classifyParen_malformed {t : Text}
    (h : ∀ f ∈ numericForms, ∀ ds : Text, ds.length = f.digits → '(' :: t ≠ f.lead ++ ds ++ f.tail) :
    classifyParen t = .error .malformedOperand := by
  simp only [numericForms, List.forall_mem_cons] at h
  obtain ⟨-, -, -, -, -, -, -, hindX, hindY, -⟩ := h
  unfold classifyParen
  split
  · next d h l p q r =>
    split
    · next hd =>
      subst hd
      rw [if_neg (by rintro ⟨rfl, rfl, rfl⟩; exact hindX [h, l] rfl rfl),
        if_neg (by rintro ⟨rfl, rfl, rfl⟩; exact hindY [h, l] rfl rfl)]
    · rfl
  · rfl

/-- A text that begins as a numeric form and has the shape of none is malformed. -/
theorem classify_no_form (transfer : Bool) {c : Char} {t : Text} (hc : c ∈ ['#', '$', '('])
    (h : ∀ f ∈ numericForms, ∀ ds : Text, ds.length = f.digits → c :: t ≠ f.lead ++ ds ++ f.tail) :
    classify transfer (c :: t) = .error .malformedOperand := by
  simp only [List.mem_cons, List.not_mem_nil, or_false] at hc
  rcases hc with rfl | rfl | rfl
  · rw [classify_hash]
    refine classifyImmediate_malformed fun x y hxy => ?_
    obtain ⟨himm, -⟩ := List.forall_mem_cons.mp h
    exact himm [x, y] rfl (hxy ▸ rfl)
  · rw [classify_dollar, classifyDollar_malformed h]
  · rw [classify_paren, classifyParen_malformed h]

/-- Settles O8: the name table by evaluation; a line by what it lacks, in the order of the decoder's tests; an operand
by its first character and its shape. -/
theorem unreadableLinesAreRefused : Obligations.UnreadableLinesAreRefused := by
  refine ⟨opcodeOf_eq_some_iff, fun line => decode_nonAscii, fun line _ hascii hcolon hunknown => ?_,
    fun op field e hop hascii hcolon => decode_mnemonic_error hop (all_isAscii hascii) hcolon,
    fun transfer c t => classify_no_form transfer, fun f hf transfer ds hlen hbad hshape => ?_, fun c t hc => ?_⟩
  · rw [decode_eq_decodeInstruction (all_isAscii hascii) hcolon, decodeInstruction_unknown hunknown]
  · rw [classify_numericForm hf transfer hlen hshape, hexFrom_badHex hbad]
    rfl
  · rw [classify_other false hc, if_neg Bool.false_ne_true]

end Sys2Proof.Machine

namespace Sys2Proof.Machine

/-! ## The record that a line builds, and whether a line spells it (R69, R76, R85) -/

theorem build_opcode {op : Opcode} (hop : op ≠ .label) (o : Operand) (l : Text) : (op.build o l).opcode = op := by
  cases op
  case label => exact absurd rfl hop
  all_goals rfl

theorem build_operand {op : Opcode} (hop : op ≠ .label) (o : Operand) (l : Text) : (op.build o l).operand = o := by
  cases op
  case label => exact absurd rfl hop
  all_goals rfl

/-- A control transfer carries the name it is built with. -/
theorem build_labelName {op : Opcode} (htransfer : op.isTransfer = true) (o : Operand) (l : Text) :
    (op.build o l).labelName = l := by
  cases op with
  | jmp | jsr | bpl | bmi | bvc | bvs | bcc | bcs | bne | beq => rfl
  | _ => cases htransfer

theorem labelName_of_not_transfer {i : Instr} (hop : i.opcode ≠ .label) (h : i.opcode.isTransfer = false) :
    i.labelName = [] := by
  cases i with
  | label => exact absurd rfl hop
  | jmp | jsr | bpl | bmi | bvc | bvs | bcc | bcs | bne | beq => cases h
  | _ => rfl

theorem spelled_of_ne_label {i : Instr} (hop : i.opcode ≠ .label) : i.spelled =
    (i.operand != .relative || (i.opcode.isTransfer && referableName i.labelName)) := by
  unfold Instr.spelled
  split
  · exact absurd rfl hop
  · rfl

theorem definableName_iff (n : Text) : definableName n = true ↔ n.all isAscii = true ∧ trim n = n := by
  rw [definableName, Bool.and_eq_true, beq_iff_eq]

theorem referableName_iff (l : Text) : referableName l = true ↔
    definableName l = true ∧ (∃ c t, l = c :: t ∧ c ∉ ['#', '$', '(']) ∧ l.getLast? ≠ some ':' := by
  cases l <;> simp [referableName, and_assoc]

/-! ## Lines that decode to legal records (R60, R75, R87) -/

theorem hexOperand_ne_relative {n : Nat} {form : BitVec n → Operand} (hform : ∀ v, form v ≠ .relative) (t : Text) :
    hexOperand n form t ≠ .ok .relative := by
  unfold hexOperand
  split
  · exact fun h => hform _ (Except.ok.inj h)
  · exact nofun

theorem classifyImmediate_ne_relative (t : Text) : classifyImmediate t ≠ .ok .relative := by
  unfold classifyImmediate
  repeat' split
  all_goals simp [hexOperand_ne_relative]

theorem classifyDollar_ne_relative (t : Text) : classifyDollar t ≠ .ok .relative := by
  unfold classifyDollar
  repeat' split
  all_goals simp [hexOperand_ne_relative]

theorem classifyParen_ne_relative (t : Text) : classifyParen t ≠ .ok .relative := by
  unfold classifyParen
  repeat' split
  all_goals simp [hexOperand_ne_relative]

/-- Only a control transfer has a label reference, and it begins as no numeric form (R69). -/
theorem classify_eq_relative {transfer : Bool} {t : Text} (h : classify transfer t = .ok .relative) :
    transfer = true ∧ ∃ c u, t = c :: u ∧ c ∉ ['#', '$', '('] := by
  cases t with
  | nil => cases h
  | cons c u =>
    by_cases hhash : c = '#'
    · rw [hhash, classify_hash] at h
      exact absurd h (classifyImmediate_ne_relative u)
    by_cases hdollar : c = '$'
    · rw [hdollar, classify_dollar] at h
      exact absurd h (classifyDollar_ne_relative u)
    by_cases hparen : c = '('
    · rw [hparen, classify_paren] at h
      exact absurd h (classifyParen_ne_relative u)
    have hc : c ∉ ['#', '$', '('] := by simp [hhash, hdollar, hparen]
    rw [classify_other transfer hc] at h
    cases transfer
    · cases h
    · exact ⟨rfl, c, u, rfl, hc⟩

/-- The field of a label reference in a trimmed line that is no label line is, trimmed, a name that the encoder can
write. -/
theorem referableName_of_field {op : Opcode} {field : Text} (hascii : (op.chars ++ field).all isAscii = true)
    (htrim : trim (op.chars ++ field) = op.chars ++ field) (hcolon : (op.chars ++ field).getLast? ≠ some ':')
    {c : Char} {u : Text} (hfield : stripWs field = c :: u) (hc : c ∉ ['#', '$', '(']) :
    referableName (trim field) = true := by
  have hhead : (trim field).head? = some c := by rw [head?_trim, hfield]; rfl
  have hstrip : stripWs (op.chars ++ field) = stripWs op.chars ++ stripWs field := List.filter_append ..
  have hlast : (op.chars ++ field).getLast? = (trim field).getLast? := by
    rw [← htrim, getLast?_trim, getLast?_trim, hstrip, hfield,
      List.getLast?_append_of_ne_nil _ (List.cons_ne_nil c u)]
  rw [referableName_iff, definableName_iff]
  refine ⟨⟨trim_all_isAscii ?_, trim_trim field⟩, ?_, hlast ▸ hcolon⟩
  · rw [List.all_append, Bool.and_eq_true] at hascii
    exact hascii.2
  · obtain ⟨r, hr⟩ := List.head?_eq_some_iff.mp hhead
    exact ⟨c, r, hr, hc⟩

/-- Settles O4: a label line's name is trimmed, and a label reference's is one the encoder can write; any other operand
is spelled by its form. -/
theorem verifiedLinesAreWellFormed : Obligations.VerifiedLinesAreWellFormed := by
  intro line i hdelivered hdec hlegal
  obtain ⟨-, htrim⟩ := trim_of_delivered hdelivered
  obtain ⟨hascii, rfl | ⟨hcolon, hins⟩⟩ := decode_eq_ok hdec
  · have hname : line.dropLast.all isAscii = true :=
      List.all_eq_true.mpr fun c hc => List.all_eq_true.mp hascii c (List.dropLast_subset _ hc)
    rw [Instr.wf, hlegal, Bool.true_and]
    exact (definableName_iff _).mpr ⟨trim_all_isAscii hname, trim_trim _⟩
  · obtain ⟨op, field, o, hop, rfl, ho, rfl⟩ := decodeInstruction_eq_ok hins
    rw [Instr.wf, hlegal, Bool.true_and, spelled_of_ne_label (by rwa [build_opcode hop]), build_operand hop,
      build_opcode hop]
    by_cases hrel : o = .relative
    · subst hrel
      obtain ⟨htransfer, c, u, hfield, hc⟩ := classify_eq_relative ho
      simp only [htransfer, if_true, build_labelName htransfer]
      exact referableName_of_field hascii htrim hcolon hfield hc
    · rw [bne_iff_ne.mpr hrel, Bool.true_or]

end Sys2Proof.Machine

namespace Sys2Proof.Machine

/-! ## The encoder's lines decode (R62, R64, R90) -/

/-- What the encoder writes after the mnemonic. -/
def encodedField (o : Operand) (l : Text) : Text :=
  match o with
  | .implied => []
  | o => ' ' :: o.text l

theorem encodedField_of_ne_implied {o : Operand} (h : o ≠ .implied) (l : Text) :
    encodedField o l = ' ' :: o.text l := by
  unfold encodedField
  split
  · exact absurd rfl h
  · rfl

theorem encode_of_ne_label {i : Instr} (hop : i.opcode ≠ .label) :
    encode i = i.opcode.chars ++ encodedField i.operand i.labelName := by
  unfold encode encodedField
  split
  · exact absurd rfl hop
  · cases i.operand <;> simp

/-- A character that stands in a numeric operand: ASCII, no whitespace and no colon. -/
def plainChar (c : Char) : Bool := isAscii c && !isSpace c && c != ':'

theorem plainChar_of_hexDigit {c : Char} {d : Nat} (h : hexDigit c = some d) : plainChar c = true := by
  rw [plainChar, isAscii_of_hexDigit h, isSpace_of_hexDigit h, bne_iff_ne.mpr (ne_colon_of_hexDigit h)]
  rfl

theorem hexDigit_hexChar : ∀ n < 16, hexDigit (hexChar n) = some n := by decide

/-- The text consists of digits and spells the number in base 16 (R63). -/
def Spells (t : Text) (n : Nat) : Prop :=
  ∃ ds : List Nat, t.map hexDigit = ds.map some ∧ Nat.ofDigits 16 ds.reverse = n

theorem spells_hexByte (v : Byte) : Spells (hexByte v) v.toNat := by
  have hv : v.toNat < 256 := v.isLt
  refine ⟨[v.toNat / 16, v.toNat % 16], ?_, ?_⟩
  · simp only [hexByte, List.map_cons, List.map_nil]
    rw [hexDigit_hexChar _ (by omega), hexDigit_hexChar _ (by omega)]
  · simp only [List.reverse_cons, List.reverse_nil, List.nil_append, List.cons_append, Nat.ofDigits_cons,
      Nat.ofDigits_nil]
    omega

theorem spells_hexHalf (v : Half) : Spells (hexHalf v) v.toNat := by
  have hv : v.toNat < 65536 := v.isLt
  refine ⟨[v.toNat / 4096, v.toNat / 256 % 16, v.toNat / 16 % 16, v.toNat % 16], ?_, ?_⟩
  · simp only [hexHalf, List.map_cons, List.map_nil]
    rw [hexDigit_hexChar _ (by omega), hexDigit_hexChar _ (by omega), hexDigit_hexChar _ (by omega),
      hexDigit_hexChar _ (by omega)]
  · simp only [List.reverse_cons, List.reverse_nil, List.nil_append, List.cons_append, Nat.ofDigits_cons,
      Nat.ofDigits_nil]
    omega

theorem Spells.all_plainChar {t : Text} {n : Nat} (h : Spells t n) : t.all plainChar = true := by
  obtain ⟨ds, hds, -⟩ := h
  refine List.all_eq_true.mpr fun c hc => ?_
  have hmem : hexDigit c ∈ ds.map some := hds ▸ List.mem_map_of_mem hc
  obtain ⟨d, -, hd⟩ := List.mem_map.mp hmem
  exact plainChar_of_hexDigit hd.symm

/-- The encoder writes a numeric operand in the form of its mode, with the digits of its value (R64). -/
theorem operand_text_form {o : Operand} (hrel : o ≠ .relative) (himp : o ≠ .implied) (l : Text) :
    ∃ f ∈ numericForms, ∃ t n, t.length = f.digits ∧ Spells t n ∧ o.text l = f.lead ++ t ++ f.tail ∧
      f.operand n = o := by
  have hmem := @List.mem_of_getElem? _ numericForms
  have hbyte (v : Byte) : BitVec.ofNat 8 v.toNat = v := by simp
  have hhalf (v : Half) : BitVec.ofNat 16 v.toNat = v := by simp
  cases o with
  | relative => exact absurd rfl hrel
  | implied => exact absurd rfl himp
  | immediate v => exact ⟨_, hmem (i := 0) rfl, _, _, rfl, spells_hexByte v, rfl, congrArg _ (hbyte v)⟩
  | zeroPage v => exact ⟨_, hmem (i := 1) rfl, _, _, rfl, spells_hexByte v, rfl, congrArg _ (hbyte v)⟩
  | zeroPageX v => exact ⟨_, hmem (i := 2) rfl, _, _, rfl, spells_hexByte v, rfl, congrArg _ (hbyte v)⟩
  | zeroPageY v => exact ⟨_, hmem (i := 3) rfl, _, _, rfl, spells_hexByte v, rfl, congrArg _ (hbyte v)⟩
  | absolute v => exact ⟨_, hmem (i := 4) rfl, _, _, rfl, spells_hexHalf v, rfl, congrArg _ (hhalf v)⟩
  | absoluteX v => exact ⟨_, hmem (i := 5) rfl, _, _, rfl, spells_hexHalf v, rfl, congrArg _ (hhalf v)⟩
  | absoluteY v => exact ⟨_, hmem (i := 6) rfl, _, _, rfl, spells_hexHalf v, rfl, congrArg _ (hhalf v)⟩
  | indirectX v => exact ⟨_, hmem (i := 7) rfl, _, _, rfl, spells_hexByte v, rfl, congrArg _ (hbyte v)⟩
  | indirectY v => exact ⟨_, hmem (i := 8) rfl, _, _, rfl, spells_hexByte v, rfl, congrArg _ (hbyte v)⟩

/-- The text of a numeric operand is read back, and its characters are plain. -/
theorem classify_operand_text {o : Operand} (hrel : o ≠ .relative) (himp : o ≠ .implied) (l : Text)
    (transfer : Bool) : classify transfer (o.text l) = .ok o ∧ (o.text l).all plainChar = true := by
  obtain ⟨f, hf, t, n, hlen, hspells, htext, rfl⟩ := operand_text_form hrel himp l
  have hforms : ∀ f ∈ numericForms, f.lead.all plainChar = true ∧ f.tail.all plainChar = true := by
    simp only [numericForms, List.forall_mem_cons]
    decide
  obtain ⟨hlead, htail⟩ := hforms f hf
  have hdigits := hspells.all_plainChar
  obtain ⟨ds, hds, hn⟩ := hspells
  rw [htext]
  refine ⟨hn ▸ classify_digits hf transfer hlen hds, ?_⟩
  rw [List.all_append, List.all_append, hlead, htail, hdigits]
  rfl

/-- A field that the decoder reads as the operand, with the label name that the record then has. -/
structure ReadAs (transfer : Bool) (field : Text) (o : Operand) (l : Text) : Prop where
  ascii : field.all isAscii = true
  colon : field.getLast? ≠ some ':'
  operand : classify transfer (stripWs field) = .ok o
  name : (if transfer then trim field else []) = l

/-- A space and plain characters are a field of which only the space is stripped. -/
theorem field_of_plainChars {t : Text} (h : t.all plainChar = true) : (' ' :: t).all isAscii = true ∧
    (' ' :: t).getLast? ≠ some ':' ∧ stripWs (' ' :: t) = t := by
  have hplain : ∀ c ∈ t, (isAscii c = true ∧ isSpace c = false) ∧ c ≠ ':' := by
    simpa [plainChar] using h
  refine ⟨?_, fun hlast => ?_, ?_⟩
  · rw [List.all_cons, List.all_eq_true.mpr fun c hc => (hplain c hc).1.1]
    rfl
  · obtain hspace | hmem := List.mem_cons.mp (List.mem_of_getLast? hlast)
    · exact absurd hspace (by decide)
    · exact (hplain _ hmem).2 rfl
  · rw [stripWs_cons_space]
    exact List.filter_eq_self.mpr fun c hc => by rw [(hplain c hc).1.2]; rfl

theorem readAs_implied (l : Text) : ReadAs false (encodedField .implied l) .implied [] :=
  ⟨rfl, nofun, rfl, rfl⟩

theorem readAs_numeric {o : Operand} (hrel : o ≠ .relative) (himp : o ≠ .implied) (l : Text) :
    ReadAs false (encodedField o l) o [] := by
  obtain ⟨ho, hplain⟩ := classify_operand_text hrel himp l false
  obtain ⟨hascii, hcolon, hstrip⟩ := field_of_plainChars hplain
  rw [encodedField_of_ne_implied himp]
  exact ⟨hascii, hcolon, by rw [hstrip, ho], rfl⟩

theorem readAs_relative {l : Text} (hl : referableName l = true) :
    ReadAs true (encodedField .relative l) .relative l := by
  obtain ⟨hdef, ⟨c, t, hct, hc⟩, hcolon⟩ := (referableName_iff l).mp hl
  obtain ⟨hascii, htrim⟩ := (definableName_iff l).mp hdef
  have hhead : (stripWs l).head? = some c := by rw [← head?_trim, htrim, hct]; rfl
  obtain ⟨u, hu⟩ := List.head?_eq_some_iff.mp hhead
  have hfield : encodedField .relative l = ' ' :: l := rfl
  rw [hfield]
  refine ⟨?_, ?_, ?_, ?_⟩
  · rw [List.all_cons, hascii]
    rfl
  · rwa [List.getLast?_cons_of_ne_nil (hct ▸ List.cons_ne_nil c t)]
  · rw [stripWs_cons_space, hu, classify_other true hc, if_pos rfl]
  · rw [if_pos rfl, trim_cons_space, htrim]

/-- The verifier leaves a control transfer its label reference only (R85). -/
theorem operand_of_legal_transfer {i : Instr} (hlegal : i.legal = true) (h : i.opcode.isTransfer = true) :
    i.operand = .relative := by
  have hmode : i.operand.mode = .relative := by
    unfold Instr.legal at hlegal
    revert hlegal h
    cases i.opcode with
    | jmp | jsr | bpl | bmi | bvc | bvs | bcc | bcs | bne | beq => exact fun hlegal _ => of_decide_eq_true hlegal
    | _ => exact fun _ h => nomatch h
  revert hmode
  cases i.operand with
  | relative => exact fun _ => rfl
  | _ => exact nofun

/-- The field of a well-formed instruction is read as its operand: a label reference for a control transfer, else none
or a number. -/
theorem readAs_encodedField {i : Instr} (hop : i.opcode ≠ .label) (hwf : i.wf = true) :
    ReadAs i.opcode.isTransfer (encodedField i.operand i.labelName) i.operand i.labelName := by
  obtain ⟨hlegal, hspelled⟩ := Bool.and_eq_true_iff.mp hwf
  rw [spelled_of_ne_label hop] at hspelled
  cases htransfer : i.opcode.isTransfer with
  | true =>
    rw [operand_of_legal_transfer hlegal htransfer, htransfer] at hspelled
    rw [operand_of_legal_transfer hlegal htransfer]
    exact readAs_relative hspelled
  | false =>
    have hrel : i.operand ≠ .relative := by simpa [htransfer] using hspelled
    rw [labelName_of_not_transfer hop htransfer]
    by_cases himp : i.operand = .implied
    · rw [himp]
      exact readAs_implied []
    · exact readAs_numeric hrel himp []

/-- Settles O2: a label line by its colon; any other line is the mnemonic and a field that is read as the operand, and
the record's fields determine the instruction. -/
theorem decodeInvertsEncode : Obligations.DecodeInvertsEncode := by
  intro i hwf
  by_cases hop : i.opcode = .label
  · cases i with
    | label n =>
      obtain ⟨-, hspelled⟩ := Bool.and_eq_true_iff.mp hwf
      obtain ⟨hascii, htrim⟩ := (definableName_iff n).mp hspelled
      exact (decode_label hascii).trans (by rw [htrim])
    | _ => cases hop
  · obtain ⟨hascii, hcolon, hoperand, hname⟩ := readAs_encodedField hop hwf
    rw [encode_of_ne_label hop, decode_mnemonic hop hascii hcolon hoperand, hname, ← Instr.eq_build_of_opcode rfl]

/-- Settles O1: the decoder's answers, by evaluation. -/
theorem linesDecodeAsTheSpecWritesThem : Obligations.LinesDecodeAsTheSpecWritesThem := by
  unfold Obligations.LinesDecodeAsTheSpecWritesThem
  decide

end Sys2Proof.Machine

namespace Sys2Proof.Machine

/-! ## The label table's indices (R80) -/

/-- An entry is found at the end of a table exactly where its name is not found before. -/
theorem lookupLabel_append_eq_some (lt : LabelTable) (new name : Text) (n k : Nat) :
    lookupLabel (lt ++ [(new, n)]) name = some k ↔
      lookupLabel lt name = some k ∨ lookupLabel lt name = none ∧ new = name ∧ n = k := by
  induction lt with
  | nil => by_cases h : new = name <;> simp [lookupLabel, h]
  | cons x lt ih => by_cases h : x.1 = name <;> simp [lookupLabel, h, ih]

/-- A record of a program is its first or one of the rest. -/
theorem exists_getElem?_cons (i x : Instr) (p : List Instr) (n k : Nat) :
    (∃ j, (i :: p)[j]? = some x ∧ k = n + j + 1) ↔
      i = x ∧ k = n + 1 ∨ ∃ j, p[j]? = some x ∧ k = n + 1 + j + 1 := by
  rw [← Nat.or_exists_add_one]
  simp only [List.getElem?_cons_zero, List.getElem?_cons_succ, Option.some.injEq, Nat.add_zero, Nat.add_assoc,
    Nat.add_comm 1]

/-- A scan adds, for each LABEL record, its name with the index after it. -/
theorem scanLabels_lookup {n : Nat} {lt lt' : LabelTable} {p : List Instr} (h : scanLabels n lt p = .ok lt')
    (name : Text) (k : Nat) : lookupLabel lt' name = some k ↔
      lookupLabel lt name = some k ∨ ∃ j, p[j]? = some (.label name) ∧ k = n + j + 1 := by
  induction p generalizing n lt with
  | nil => cases h; simp
  | cons i p ih =>
    rw [exists_getElem?_cons]
    by_cases hi : ∃ new, i = .label new
    · obtain ⟨new, rfl⟩ := hi
      cases hnew : lookupLabel lt new with
      | some m => rw [scanLabels_label_again (by rw [hnew]; rfl)] at h; cases h
      | none =>
        rw [scanLabels_label_new hnew] at h
        have hhead : (lookupLabel lt name = none ∧ new = name ∧ n + 1 = k) ↔
            Instr.label new = .label name ∧ k = n + 1 := by
          rw [Instr.label.injEq, eq_comm (a := k)]
          exact ⟨fun ⟨_, hname, hk⟩ => ⟨hname, hk⟩, fun ⟨hname, hk⟩ => ⟨hname ▸ hnew, hname, hk⟩⟩
        rw [ih h, lookupLabel_append_eq_some, hhead, or_assoc]
    · have hother : ∀ new, i ≠ .label new := not_exists.mp hi
      rw [scanLabels_other hother] at h
      rw [ih h]
      simp only [hother name, false_and, false_or]

/-- In a program's label table a name stands for the index after the LABEL record of that name. -/
theorem labelTable_lookup {p : List Instr} {lt : LabelTable} (h : labelTable p = .ok lt) (name : Text) (k : Nat) :
    lookupLabel lt name = some k ↔ ∃ j, p[j]? = some (.label name) ∧ k = j + 1 := by
  rw [scanLabels_lookup h]
  simp [lookupLabel]

/-- Settles O11: an assembled program's table is the label table of its records. -/
theorem labelsStandForTheNextIndex : Obligations.LabelsStandForTheNextIndex := by
  intro lines p lt hasm
  obtain ⟨-, htable, -⟩ := (assemble_eq_ok_iff lines p lt).mp hasm
  exact labelTable_lookup htable

theorem lookupLabel_le_length {p : List Instr} {lt : LabelTable} (h : labelTable p = .ok lt) {name : Text} {k : Nat}
    (hk : lookupLabel lt name = some k) : k ≤ p.length := by
  obtain ⟨j, hj, rfl⟩ := (labelTable_lookup h name k).mp hk
  exact (List.getElem?_eq_some_iff.mp hj).1

end Sys2Proof.Machine

namespace Sys2Proof.Machine

/-! ## The canonical form of memory (R40, R41) -/

theorem State.readByte_writeByte {s : State} (hm : s.mem.wf = true) (a b : Half) (v : Byte) :
    (s.writeByte a v).readByte b = if b = a then v else s.readByte b := by
  split
  · next hb => rw [hb, State.readByte_writeByte_self hm]
  · next hb => rw [State.readByte_writeByte_ne s v hb]

/-- Settles O15: the byte at the address is read back, and every other byte as before. -/
theorem readsSeeTheLastWrite : Obligations.ReadsSeeTheLastWrite :=
  fun _ a b v hm => State.readByte_writeByte hm a b v

/-- A byte that differs from what an unlisted address reads as is listed. -/
theorem mem_of_readCells {m : List Host.Cell} {a : Nat} (h : readCells m a ≠ unlisted a) :
    (a, readCells m a) ∈ m := by
  induction m with
  | nil => exact absurd rfl h
  | cons c m ih =>
    obtain ⟨k, v⟩ := c
    by_cases hk : k = a
    · simp [readCells, hk]
    · simp only [readCells, if_neg hk] at h ⊢
      exact List.mem_cons_of_mem _ (ih h)

theorem readCells_cons_self (k : Nat) (v : Byte) (m : List Host.Cell) : readCells ((k, v) :: m) k = v := by
  simp [readCells]

/-- The first address of one of two rising lists without unlisted bytes that read alike is not below that of the
other. -/
theorem first_le_of_reads_alike {k k' : Nat} {v v' : Byte} {m m' : List Host.Cell} (hv : v ≠ unlisted k)
    (hm' : risingFrom (k' + 1) m' = true)
    (hread : readCells ((k, v) :: m) k = readCells ((k', v') :: m') k) : k' ≤ k := by
  by_contra hlt
  have hrise : risingFrom k' ((k', v') :: m') = true := by simp [risingFrom, hm']
  rw [readCells_cons_self, readCells_below hrise (by omega)] at hread
  exact hv hread

/-- Rising lists of bytes other than the unlisted one are equal if they read alike. -/
theorem cells_eq_of_reads_alike {low : Nat} {m m' : List Host.Cell} (hm : risingFrom low m = true)
    (hm' : risingFrom low m' = true) (hv : ∀ c ∈ m, c.2 ≠ unlisted c.1) (hv' : ∀ c ∈ m', c.2 ≠ unlisted c.1)
    (hread : ∀ a, readCells m a = readCells m' a) : m = m' := by
  induction m generalizing low m' with
  | nil =>
    cases m' with
    | nil => rfl
    | cons c m' =>
      have hfirst := (readCells_cons_self c.1 c.2 m').symm.trans (hread c.1).symm
      exact absurd hfirst (hv' c List.mem_cons_self)
  | cons c m ih =>
    cases m' with
    | nil =>
      have hfirst := (readCells_cons_self c.1 c.2 m).symm.trans (hread c.1)
      exact absurd hfirst (hv c List.mem_cons_self)
    | cons c' m' =>
      obtain ⟨k, v⟩ := c
      obtain ⟨k', v'⟩ := c'
      simp only [risingFrom, Bool.and_eq_true, decide_eq_true_eq] at hm hm'
      obtain ⟨-, hm⟩ := hm
      obtain ⟨-, hm'⟩ := hm'
      obtain rfl : k = k' := le_antisymm
        (first_le_of_reads_alike (hv' _ List.mem_cons_self) hm (hread k').symm)
        (first_le_of_reads_alike (hv _ List.mem_cons_self) hm' (hread k))
      obtain rfl : v = v' := by simpa [readCells] using hread k
      have hrest : ∀ a, readCells m a = readCells m' a := fun a => by
        by_cases ha : k = a
        · subst ha
          rw [readCells_below hm (Nat.lt_succ_self k), readCells_below hm' (Nat.lt_succ_self k)]
        · simpa [readCells, ha] using hread a
      rw [ih hm hm' (fun c hc => hv c (List.mem_cons_of_mem _ hc)) (fun c hc => hv' c (List.mem_cons_of_mem _ hc))
        hrest]

/-- A canonical memory lists no platform cell and no address beyond the last. -/
theorem Memory.readCells_of_unlistable {m : Memory} (hm : m.wf = true) {a : Nat}
    (ha : ¬ (a < 0x10000 ∧ a ≠ Config.entropyAddr.toNat ∧ a ≠ Config.keyAddr.toNat)) :
    readCells m.ram a = unlisted a := by
  by_contra hne
  simp only [Memory.wf, Bool.and_eq_true] at hm
  obtain ⟨-, hall⟩ := hm
  have hcell := List.all_eq_true.mp hall _ (mem_of_readCells hne)
  simp only [listable, Bool.and_eq_true, decide_eq_true_eq, bne_iff_ne] at hcell
  obtain ⟨⟨⟨hlt, hentropy⟩, hkey⟩, -⟩ := hcell
  exact ha ⟨hlt, hentropy, hkey⟩

/-- The list of a canonical memory reads as the memory does at every address that may be listed. -/
theorem Memory.readCells_eq_read (m : Memory) {a : Nat} (hlt : a < 0x10000) (hentropy : a ≠ Config.entropyAddr.toNat)
    (hkey : a ≠ Config.keyAddr.toNat) : readCells m.ram a = m.read (BitVec.ofNat 16 a) := by
  have hn : (BitVec.ofNat 16 a).toNat = a := by
    rw [BitVec.toNat_ofNat, Nat.mod_eq_of_lt hlt]
  have he : BitVec.ofNat 16 a ≠ Config.entropyAddr := fun e => hentropy (by rw [← e, hn])
  have hk : BitVec.ofNat 16 a ≠ Config.keyAddr := fun e => hkey (by rw [← e, hn])
  rw [Memory.read, if_neg he, if_neg hk, hn]

/-- A canonical memory lists rising addresses, and no byte that an unlisted address reads as. -/
theorem Memory.rising_of_wf {m : Memory} (hm : m.wf = true) :
    risingFrom 0 m.ram = true ∧ ∀ c ∈ m.ram, c.2 ≠ unlisted c.1 := by
  simp only [Memory.wf, Bool.and_eq_true] at hm
  obtain ⟨hrise, hall⟩ := hm
  refine ⟨hrise, fun c hc => ?_⟩
  have hcell := List.all_eq_true.mp hall c hc
  simp only [listable, Bool.and_eq_true, bne_iff_ne] at hcell
  obtain ⟨-, hbyte⟩ := hcell
  exact hbyte

/-- Canonical memories that read alike are equal data. -/
theorem Memory.eq_of_reads_alike {m m' : Memory} (hm : m.wf = true) (hm' : m'.wf = true)
    (hread : ∀ a, m.read a = m'.read a) : m = m' := by
  have hcells : ∀ a, readCells m.ram a = readCells m'.ram a := fun a => by
    by_cases ha : a < 0x10000 ∧ a ≠ Config.entropyAddr.toNat ∧ a ≠ Config.keyAddr.toNat
    · obtain ⟨hlt, hentropy, hkey⟩ := ha
      rw [m.readCells_eq_read hlt hentropy hkey, m'.readCells_eq_read hlt hentropy hkey, hread]
    · rw [Memory.readCells_of_unlistable hm ha, Memory.readCells_of_unlistable hm' ha]
  obtain ⟨hrise, hbytes⟩ := Memory.rising_of_wf hm
  obtain ⟨hrise', hbytes'⟩ := Memory.rising_of_wf hm'
  have hram : m.ram = m'.ram := cells_eq_of_reads_alike hrise hrise' hbytes hbytes' hcells
  have hentropy : m.entropyCell = m'.entropyCell := by simpa [Memory.read] using hread Config.entropyAddr
  have hkey : m.keyCell = m'.keyCell := by simpa [Memory.read_keyAddr] using hread Config.keyAddr
  exact (Memory.mk.injEq ..).mpr ⟨hram, hentropy, hkey⟩

/-- Settles O16: the law of writes, and the equality of canonical memories. -/
theorem canonicalMemoryIsUnique : Obligations.CanonicalMemoryIsUnique :=
  ⟨fun _ a v hm => Memory.write_wf hm a v, fun _ _ => Memory.eq_of_reads_alike⟩

/-! ## The screen window (R14, R49) -/

/-- Settles O59: the window is the map of the reads over the range of its cells. -/
theorem screenWindowIsMemory : Obligations.ScreenWindowIsMemory := by
  intro s
  refine ⟨?_, fun k hk => ⟨_, ?_, rfl⟩⟩
  · rw [State.screen, List.length_map, List.length_range]
    rfl
  · have hlen : k < Config.screenLen := hk
    rw [State.screen, List.getElem?_map, List.getElem?_range hlen]
    rfl

end Sys2Proof.Machine

namespace Sys2Proof.Machine

/-! ## The invariant of a run at reset (R34, R95) -/

/-- The reset state of a verified program with its own label table meets the invariant. -/
theorem inv_resetWith {p : List Instr} {lt : LabelTable} (htable : labelTable p = .ok lt)
    (hlegal : ∀ i ∈ p, i.legal = true) : Inv (State.resetWith p lt) where
  mem := Memory.wf_reset p lt
  sp := (by decide : 0x00FF ≤ (0x01FF#16).toNat ∧ (0x01FF#16).toNat ≤ 0x01FF)
  pc := Nat.zero_le _
  verified := hlegal
  labels := htable
  calls := nofun
  depth := fun _ _ => Nat.zero_le _

/-- Settles O13: the empty program has the empty label table. -/
theorem resetMeetsInvariant : Obligations.ResetMeetsInvariant := inv_resetWith rfl nofun

/-- Settles O14: an assembled program is verified and its table is its own. -/
theorem loadedStatesMeetInvariant : Obligations.LoadedStatesMeetInvariant := by
  intro lines p lt hasm
  obtain ⟨-, htable, hlegal⟩ := (assemble_eq_ok_iff lines p lt).mp hasm
  exact inv_resetWith htable hlegal

/-! ## The invariant of a run is kept (R24, R28, R30) -/

theorem Inv.setFrame {s : State} (h : Inv s) (b : Bool) : Inv (s.setFrame b) :=
  ⟨h.mem, h.sp, h.pc, h.verified, h.labels, h.calls, h.depth⟩

theorem Inv.setStatus {s : State} (h : Inv s) (st : Status) : Inv (s.setStatus st) :=
  ⟨h.mem, h.sp, h.pc, h.verified, h.labels, h.calls, h.depth⟩

/-- A redirection to an index of the program or to its end. -/
theorem Inv.setPc {s : State} (h : Inv s) {k : Nat} (hk : k ≤ s.program.length) : Inv (s.setPc k) :=
  ⟨h.mem, h.sp, hk, h.verified, h.labels, h.calls, h.depth⟩

theorem Inv.setCallStack {s : State} (h : Inv s) {cs : List Nat}
    (hcalls : ∀ j ∈ cs, ∃ o l, s.program[j]? = some (.jsr o l))
    (hdepth : ∀ d, Config.callStackDepth = some d → cs.length ≤ d) : Inv (s.setCallStack cs) :=
  ⟨h.mem, h.sp, h.pc, h.verified, h.labels, hcalls, hdepth⟩

theorem Inv.finishStep {s : State} (h : Inv s) : Inv s.finishStep := by
  have hmem := finishStep_wf h.mem
  rw [finishStep_frame]
  exact ⟨hmem, h.sp, h.pc, h.verified, h.labels, h.calls, h.depth⟩

/-- SP16 stays in its range: TXS sets it in page one, and a push or a pull stops at the range's end (R24). -/
theorem DataEffect.sp_range {s t : State} (h : DataEffect s t)
    (hsp : 0x00FF ≤ s.sp16.toNat ∧ s.sp16.toNat ≤ 0x01FF) : 0x00FF ≤ t.sp16.toNat ∧ t.sp16.toNat ≤ 0x01FF := by
  obtain heq | ⟨v, heq⟩ | ⟨hne, heq⟩ | ⟨hne, heq⟩ := h.sp
  · rwa [heq]
  · rw [heq, pageOne_toNat]
    omega
  · have hlimit : s.sp16.toNat ≠ 0x00FF := fun e => hne (BitVec.eq_of_toNat_eq e)
    have hone : 1#16 ≤ s.sp16 := BitVec.le_def.mpr (le_trans (by decide) hsp.1)
    have hsub : (s.sp16 - 1).toNat = s.sp16.toNat - 1 := BitVec.toNat_sub_of_le hone
    rw [heq, hsub]
    omega
  · have htop : s.sp16.toNat ≠ 0x01FF := fun e => hne (BitVec.eq_of_toNat_eq e)
    have hadd : (s.sp16 + 1).toNat = (s.sp16.toNat + 1) % 65536 := BitVec.toNat_add s.sp16 1
    rw [heq, hadd]
    omega

theorem DataEffect.mem_wf {s t : State} (h : DataEffect s t) (hm : s.mem.wf = true) : t.mem.wf = true := by
  obtain heq | ⟨a, v, heq⟩ := h.mem
  · rwa [heq]
  · rw [heq]
    exact Memory.write_wf hm a v

/-- Every effect of the record at the index keeps the invariant. -/
theorem Effect.keeps_inv {i : Instr} {s t : State} (hs : Inv s) (hi : s.program[s.pc]? = some i)
    (h : Effect i s t) : Inv t := by
  have hpc : s.pc < s.program.length := (List.getElem?_eq_some_iff.mp hi).1
  cases h with
  | fault c => exact hs.setStatus _
  | halt o h => exact hs.setStatus _
  | jump k h hk => exact hs.setPc (lookupLabel_le_length hs.labels hk)
  | call o l k h hk hf =>
    have hroom : Config.callStackDepth ≠ some s.callStack.length := fun hfull => by
      rw [s.callStackFull_iff.mpr hfull] at hf
      cases hf
    refine (hs.setCallStack ?_ fun d hd => ?_).setPc (lookupLabel_le_length hs.labels hk)
    · rintro j (_ | ⟨_, hj⟩)
      · exact ⟨o, l, h ▸ hi⟩
      · exact hs.calls j hj
    · have hle := hs.depth d hd
      have hne : s.callStack.length ≠ d := fun e => hroom (e ▸ hd)
      rw [List.length_cons]
      omega
  | ret o j cs h hc =>
    obtain ⟨o', l, hj⟩ := hs.calls j (hc ▸ List.mem_cons_self)
    refine (hs.setCallStack (fun j hj => hs.calls j (hc ▸ List.mem_cons_of_mem _ hj)) fun d hd => ?_).setPc
      (List.getElem?_eq_some_iff.mp hj).1
    have hle := hs.depth d hd
    rw [hc, List.length_cons] at hle
    omega
  | data t h =>
    refine ⟨h.mem_wf hs.mem, h.sp_range hs.sp, ?_, ?_, ?_, ?_, ?_⟩
    · rw [h.pc, h.program]
      exact hpc
    · rw [h.program]
      exact hs.verified
    · rw [h.program, h.labels]
      exact hs.labels
    · rw [h.program, h.callStack]
      exact hs.calls
    · rw [h.callStack]
      exact hs.depth

/-- Settles O26: a step is the halt at the end, or an effect of the record at the index and the end of the step; each of
these keeps the invariant. -/
theorem stepKeepsInvariant : Obligations.StepKeepsInvariant := by
  intro s t hs hstep
  obtain ⟨-, ⟨-, rfl⟩ | ⟨i, u, hi, hu, rfl⟩⟩ := step_cases hstep
  · exact (hs.setFrame false).setStatus _
  · exact ((exec_effect hu).keeps_inv (hs.setFrame false) hi).finishStep

end Sys2Proof.Machine

namespace Sys2Proof.Machine

/-! ## The fetch and the step (R100, R101, R104) -/

/-- A running engine always has a next state. -/
theorem step_running {s : State} (hr : s.status = .running) : ∃ t, step s = .next t := by
  cases hi : s.program[s.pc]? with
  | none => exact ⟨_, step_end hr hi⟩
  | some i =>
    obtain ⟨u, hu⟩ := exec_next i s.beginStep
    exact ⟨_, step_fetched hr hi hu⟩

/-- Settles O21: a step starts from Running, and a running engine has one. -/
theorem onlyARunningEngineSteps : Obligations.OnlyARunningEngineSteps :=
  fun _ => ⟨fun ⟨_, h⟩ => (step_cases h).1, step_running⟩

/-- Settles O20: the fetch finds nothing at or past the end. -/
theorem fetchAtTheEndHalts : Obligations.FetchAtTheEndHalts :=
  fun _ hr hpc => step_end hr (List.getElem?_eq_none hpc)

/-- A program of one record has a label table. -/
theorem labelTable_singleton (i : Instr) : ∃ lt, labelTable [i] = .ok lt := by
  refine labelTable_of_distinct fun j k name hjk hk => ?_
  simp only [List.length_singleton] at hk
  omega

theorem withProgram_of_labelTable (s : State) {p : List Instr} {lt : LabelTable} (h : labelTable p = .ok lt) :
    s.withProgram p = { s with program := p, labels := lt, pc := 0, status := .running } := by
  rw [State.withProgram, h]

/-- A table word that decodes places its record alone (log entry 4). -/
theorem withFetchWord_of_decodeTableWord (s : State) {nbits w : Nat} {i : Instr}
    (h : decodeTableWord nbits w = some i) : s.withFetchWord nbits w = s.withProgram [i] := by
  rw [State.withFetchWord, h]

/-- Settles O19: the step by its fetch, the record by the line it is decoded from, and the placed record by
definition. -/
theorem stepRunsTheFetchedInstruction : Obligations.StepRunsTheFetchedInstruction := by
  refine ⟨fun s t i hr hi hexec => ?_, fun s lines line i hdec hline hi => ?_, fun s nbits w i hword => ?_⟩
  · rw [step_fetched hr hi hexec, State.finishStep]
    cases t.status <;> rfl
  · obtain ⟨-, hrecords⟩ := hdec
    obtain ⟨j, hj, hjline⟩ := hrecords s.pc line hline
    rw [hj, Except.ok.inj (hjline.symm.trans hi)]
  · obtain ⟨lt, htable⟩ := labelTable_singleton i
    rw [withFetchWord_of_decodeTableWord s hword, withProgram_of_labelTable s htable]
    exact ⟨rfl, rfl⟩

/-! ## The post-instruction phase (R103) -/

/-- The phase writes the two platform cells and the count of draws only. -/
theorem State.postInstruction_keeps (u : State) :
    u.postInstruction.holds u.a u.x u.y u.sp16 u.flags u.pc ∧ u.postInstruction.callStack = u.callStack ∧
    u.postInstruction.program = u.program ∧ u.postInstruction.labels = u.labels ∧
    u.postInstruction.status = u.status ∧ u.postInstruction.frame = u.frame ∧
    u.postInstruction.drawIndex = u.drawIndex + 1 :=
  ⟨⟨rfl, rfl, rfl, rfl, rfl, rfl⟩, rfl, rfl, rfl, rfl, rfl, rfl⟩

/-- Settles O22: a step ends with the phase, or at once after a fault. -/
theorem postInstructionPhase : Obligations.PostInstructionPhase := by
  intro s u i hr hi hexec
  have hstep := step_fetched hr hi hexec
  refine ⟨fun hok => ?_, fun ⟨code, k, hfault⟩ => ?_⟩
  · rw [finishStep_ok hok] at hstep
    refine ⟨_, hstep, u.readByte_postInstruction_entropy, u.readByte_postInstruction_key.trans ?_,
      fun b => u.readByte_postInstruction_ne, u.postInstruction_keeps⟩
    cases Config.keyEvent u.drawIndex <;> rfl
  · rwa [finishStep_faulted hfault] at hstep

end Sys2Proof.Machine

namespace Sys2Proof.Machine

/-! ## How an instruction ends: the status it leaves (R33, R104, R107) -/

/-- Only taking a fault leaves a running engine Faulted. -/
theorem Effect.eq_raiseFault {i : Instr} {s t : State} {code : FaultCode} {k : Nat} (h : Effect i s t)
    (hr : s.status = .running) (ht : t.status = .faulted code k) : t = s.raiseFault code := by
  cases h with
  | fault c => cases ht; rfl
  | halt o h => cases ht
  | jump k h hk => exact nomatch hr.symm.trans ht
  | call o l k h hk hf => exact nomatch hr.symm.trans ht
  | ret o j cs h hc => exact nomatch hr.symm.trans ht
  | data t h => exact nomatch (h.status.trans hr).symm.trans ht

/-- Only BRK leaves a running engine Halted. -/
theorem Effect.eq_halt {i : Instr} {s t : State} {r : HaltReason} (h : Effect i s t) (hr : s.status = .running)
    (ht : t.status = .halted r) : (∃ o, i = .brk o) ∧ t = s.halt .brk ∧ r = .brk := by
  cases h with
  | fault c => cases ht
  | halt o h => cases ht; exact ⟨⟨o, h⟩, rfl, rfl⟩
  | jump k h hk => exact nomatch hr.symm.trans ht
  | call o l k h hk hf => exact nomatch hr.symm.trans ht
  | ret o j cs h hc => exact nomatch hr.symm.trans ht
  | data t h => exact nomatch (h.status.trans hr).symm.trans ht

@[simp] theorem finishStep_status (s : State) : s.finishStep.status = s.status := by rw [finishStep_frame]

@[simp] theorem finishStep_pc (s : State) : s.finishStep.pc = s.pc := by rw [finishStep_frame]

/-- A step that faults has run the record at the index, which has taken the fault, and nothing followed. -/
theorem step_faulted {s t : State} {code : FaultCode} {k : Nat} (h : step s = .next t)
    (ht : t.status = .faulted code k) :
    t = s.beginStep.raiseFault code ∧ ∃ i, s.program[s.pc]? = some i ∧ exec i s.beginStep = .next t := by
  obtain ⟨hr, ⟨-, rfl⟩ | ⟨i, u, hi, hu, rfl⟩⟩ := step_cases h
  · cases ht
  · rw [finishStep_status] at ht
    rw [finishStep_faulted ht]
    exact ⟨(exec_effect hu).eq_raiseFault hr ht, i, hi, hu⟩

/-- Settles O23: what a step that faults leaves is the fault taken. -/
theorem faultsArePrecise : Obligations.FaultsArePrecise :=
  fun _ _ _ _ h ht => (step_faulted h ht).1

/-- Settles O25: the end of the program halts with END; the record at the index, if it halts, is a BRK, whose effect is
the halt that keeps the index. -/
theorem onlyBrkAndTheEndHalt : Obligations.OnlyBrkAndTheEndHalt := by
  intro s t h
  obtain ⟨hr, ⟨hi, rfl⟩ | ⟨i, u, hi, hu, rfl⟩⟩ := step_cases h
  · refine ⟨⟨nofun, fun ⟨o, ho⟩ => ?_⟩, ⟨fun _ => List.getElem?_eq_none_iff.mp hi, fun _ => rfl⟩, nofun⟩
    rw [hi] at ho
    cases ho
  · have hpc : s.pc < s.program.length := (List.getElem?_eq_some_iff.mp hi).1
    have hhalt {r : HaltReason} := (exec_effect hu).eq_halt (r := r) hr
    rw [finishStep_status, finishStep_pc]
    refine ⟨⟨fun ht => ?_, fun ⟨o, ho⟩ => ?_⟩, ⟨fun ht => ?_, fun hle => absurd hpc (not_lt.mpr hle)⟩, fun ht => ?_⟩
    · obtain ⟨⟨o, rfl⟩, -⟩ := hhalt ht
      exact ⟨o, hi⟩
    · obtain rfl := Option.some.inj (hi.symm.trans ho)
      cases hu
      rfl
    · obtain ⟨-, -, hreason⟩ := hhalt ht
      cases hreason
    · obtain ⟨-, rfl, -⟩ := hhalt ht
      rfl

/-- Settles O30: among the effects, only that of an instruction which neither redirects, halts nor faults is left, and
it advances the index. -/
theorem indexAdvancesUnlessRedirected : Obligations.IndexAdvancesUnlessRedirected := by
  intro i s t hr hexec ht htransfer hrts hbrk hrti
  cases exec_effect hexec with
  | fault c => cases ht
  | halt o h => cases ht
  | jump k h hk => rw [htransfer] at h; cases h
  | call o l k h hk hf => subst h; cases htransfer
  | ret o j cs h hc => subst h; exact absurd rfl hrts
  | data t h => exact h.pc

end Sys2Proof.Machine

namespace Sys2Proof.Machine

/-! ## The fault report (R253) -/

theorem readOperand_ne_unresolved (s : State) (o : Operand) : s.readOperand o ≠ .error .unresolvedLabel := by
  cases h : readable o
  · rw [readOperand_unreadable s h]
    exact nofun
  · rw [readOperand_readable s h]
    exact nofun

theorem storeAddr_ne_unresolved (s : State) (o : Operand) : s.storeAddr o ≠ .error .unresolvedLabel := by
  cases h : inMemory o
  · rw [storeAddr_notInMemory s h]
    exact nofun
  · rw [storeAddr_inMemory s h]
    exact nofun

theorem rmwTarget_ne_unresolved (s : State) (acc : Bool) (o : Operand) :
    s.rmwTarget acc o ≠ .error .unresolvedLabel := by
  unfold State.rmwTarget
  split
  · exact nofun
  · split <;> exact nofun

/-- ADC and SBC fault by D or by their operand. -/
theorem binaryOnly_ne_unresolved {r : Byte → Byte → Byte} {f : Flags → Byte → Byte → Flags} {o : Operand}
    {s : State} (hr : s.status = .running) :
    binaryOnly s (accumulate r f o) ≠ .next (s.raiseFault .unresolvedLabel) := by
  intro h
  cases hd : s.flags.d
  · have hread : accumulate r f o s = .next (s.raiseFault .unresolvedLabel) := by simpa [binaryOnly, hd] using h
    exact readOperand_ne_unresolved s o ((faulted_iff_of_test hread (fun _ => hr) _).mp rfl)
  · have hfault : binaryOnly s (accumulate r f o) = .next (s.raiseFault .decimalUnsupported) := by
      simp [binaryOnly, hd]
    exact nomatch congrArg State.status (Host.Outcome.next.inj (hfault.symm.trans h))

/-- UNRESOLVED_LABEL is raised by a control transfer to a name that the table does not have, and by nothing else. -/
theorem lookupLabel_of_unresolved {i : Instr} {s : State} (hr : s.status = .running)
    (h : exec i s = .next (s.raiseFault .unresolvedLabel)) : lookupLabel s.labels i.labelName = none := by
  have hother {u : State} (hu : exec i s = .next u) (hne : u.status ≠ .faulted .unresolvedLabel s.pc) :
      lookupLabel s.labels i.labelName = none :=
    absurd (congrArg State.status (Host.Outcome.next.inj (hu.symm.trans h))) hne
  have hrun : s.status ≠ .faulted .unresolvedLabel s.pc := ne_of_eq_of_ne hr nofun
  cases i with
  | bcc o l | bcs o l | beq o l | bne o l | bmi o l | bpl o l | bvc o l | bvs o l =>
    have htest := (faulted_iff_of_test h (fun _ => by split <;> exact hr) _).mp rfl
    exact ((target_error_iff s l _).mp htest).1
  | jmp o l =>
    have htest := (faulted_iff_of_test h (fun _ => hr) _).mp rfl
    exact ((target_error_iff s l _).mp htest).1
  | jsr o l =>
    cases hk : lookupLabel s.labels l with
    | none => exact hk
    | some k => exact nomatch ((faulted_iff_of_limit (exec_jsr_found hk o) h hr _).mp rfl).2
  | adc o | sbc o => exact absurd h (binaryOnly_ne_unresolved hr)
  | and o | ora o | eor o | bit o | cmp o | cpx o | cpy o | lda o | ldx o | ldy o =>
    exact absurd ((faulted_iff_of_test h (fun _ => hr) _).mp rfl) (readOperand_ne_unresolved s o)
  | sta o | stx o | sty o =>
    exact absurd ((faulted_iff_of_test h (fun _ => hr) _).mp rfl) (storeAddr_ne_unresolved s o)
  | asl o | lsr o | rol o | ror o | inc o | dec o =>
    exact absurd ((faulted_iff_of_test h (fun v => by cases v <;> exact hr) _).mp rfl) (rmwTarget_ne_unresolved s _ o)
  | pha o => exact nomatch ((faulted_iff_of_limit (exec_pha o s) h hr _).mp rfl).2
  | pla o => exact nomatch ((faulted_iff_of_limit (exec_pla o s) h hr _).mp rfl).2
  | rts o =>
    cases hcs : s.callStack with
    | nil => exact hother (exec_rts_empty hcs o) nofun
    | cons j cs => exact hother (exec_rts_return hcs o) hrun
  | rti o => exact hother (exec_rti o s) nofun
  | brk o => exact hother (exec_brk o s) nofun
  | clc o | cld o | cli o | clv o | dex o | dey o | drw o | inx o | iny o | nop o | sec o | sed o | sei o | tax o
  | tay o | tsx o | txa o | txs o | tya o | label n => exact hother rfl hrun

/-- Settles O60: the record at the index took the fault, which leaves the program store, SP16 and the call stack. -/
theorem faultReportNamesTheRecord : Obligations.FaultReportNamesTheRecord := by
  intro s t i code k hi hstep ht
  obtain ⟨rfl, j, hj, hexec⟩ := step_faulted hstep ht
  obtain rfl := Option.some.inj (hi.symm.trans hj)
  obtain ⟨hr, -⟩ := step_cases hstep
  refine ⟨?_, ?_, rfl, rfl⟩
  · simp [State.faultReport, hi]
  · rintro rfl
    exact lookupLabel_of_unresolved (s := s.beginStep) hr hexec

/-! ## A call and its return (R131, R132) -/

/-- Settles O52: the JSR pushed its index, which the RTS finds on top. -/
theorem returnResumesAfterTheCall : Obligations.ReturnResumesAfterTheCall := by
  intro o o' l s t u k hk hroom hjsr hcs
  rw [exec_jsr_found hk, if_neg (s.hasRoom_iff.mp hroom)] at hjsr
  cases hjsr
  exact ⟨_, exec_rts_return hcs o', rfl, rfl⟩

/-! ## A push and the pull after it (R212, R213) -/

/-- A push in a run leaves A at the old SP16, which is no platform cell, so that the phase after it keeps the byte. -/
theorem step_pha {s : State} {o : Operand} (hinv : Inv s) (hr : s.status = .running) (hroom : s.sp16 ≠ 0x00FF#16)
    (hi : s.program[s.pc]? = some (.pha o)) : ∃ t, step s = .next t ∧ t.readByte s.sp16 = s.a ∧
      t.sp16 + 1 = s.sp16 ∧ t.pc = s.pc + 1 ∧ t.program = s.program ∧ t.status = .running := by
  obtain ⟨-, hpha⟩ := phaResult
  obtain ⟨hpush, -⟩ := hpha o s.beginStep
  obtain ⟨u, hu, hbyte, -, ⟨-, -, -, husp, -, hupc⟩, -, huprogram, -, hustatus, -⟩ := hpush hinv.mem hroom
  have hok : ∀ c k, u.status ≠ .faulted c k := fun _ _ => ne_of_eq_of_ne (hustatus.trans hr) nofun
  have hstep := step_fetched hr hi hu
  rw [finishStep_ok hok] at hstep
  have hsp : 0x0100 ≤ s.sp16.toNat := by
    have hne : s.sp16.toNat ≠ 0x00FF := fun e => hroom (BitVec.eq_of_toNat_eq e)
    have hrange := hinv.sp
    omega
  have hentropy : s.sp16 ≠ Config.entropyAddr := fun e => absurd (e ▸ hsp) (by decide)
  have hkey : s.sp16 ≠ Config.keyAddr := fun e => absurd (e ▸ hsp) (by decide)
  exact ⟨_, hstep, (u.readByte_postInstruction_ne hentropy hkey).trans hbyte,
    (congrArg (· + 1) husp).trans (BitVec.sub_add_cancel s.sp16 1), hupc, huprogram, hustatus.trans hr⟩

/-- A pull loads A from the cell above. -/
theorem step_pla {s : State} {o : Operand} (hr : s.status = .running) (hbyte : s.sp16 ≠ 0x01FF#16)
    (hi : s.program[s.pc]? = some (.pla o)) : ∃ t, step s = .next t ∧ t.a = s.readByte (s.sp16 + 1) ∧
      t.sp16 = s.sp16 + 1 ∧ t.pc = s.pc + 1 := by
  obtain ⟨-, hpla⟩ := plaResult
  obtain ⟨hpull, -⟩ := hpla o s.beginStep
  obtain ⟨u, hu, ⟨hua, -, -, husp, -, hupc⟩, -⟩ := hpull hbyte
  refine ⟨_, step_fetched hr hi hu, ?_⟩
  rw [finishStep_frame]
  exact ⟨hua, husp, hupc⟩

/-- Settles O48: the pull finds SP16 below the top of the stack, and the byte that the push left. -/
theorem pushThenPullRestoresTheAccumulator : Obligations.PushThenPullRestoresTheAccumulator := by
  intro s o o' hinv hr hroom hpha hpla
  obtain ⟨t, hpush, hbyte, hsp, hpc, hprogram, hrun⟩ := step_pha hinv hr hroom hpha
  have hbelow : t.sp16 ≠ 0x01FF#16 := fun e => by
    have hrange := hinv.sp
    rw [← hsp, e] at hrange
    exact absurd hrange (by decide)
  have hfetch : t.program[t.pc]? = some (.pla o') := by rw [hprogram, hpc, hpla]
  obtain ⟨u, hpull, hua, husp, hupc⟩ := step_pla hrun hbelow hfetch
  refine ⟨t, u, hpush, hpull, ?_, husp.trans hsp, by rw [hupc, hpc]⟩
  rw [hua, hsp, hbyte]

end Sys2Proof.Machine

namespace Sys2Proof.Machine

/-! ## Who writes what (R15, R21 to R26, R46, R108) -/

/-- The pieces of state that R108 names the writers of, each flag and each cell by itself. -/
inductive Piece where
  | a | x | y | sp16 | callStack | c | z | n | i | d | v | frame
  | cell (b : Half)

/-- The piece is in the second state as in the first. -/
@[simp] def Piece.same (s t : State) : Piece → Prop
  | .a => t.a = s.a
  | .x => t.x = s.x
  | .y => t.y = s.y
  | .sp16 => t.sp16 = s.sp16
  | .callStack => t.callStack = s.callStack
  | .c => t.flags.c = s.flags.c
  | .z => t.flags.z = s.flags.z
  | .n => t.flags.n = s.flags.n
  | .i => t.flags.i = s.flags.i
  | .d => t.flags.d = s.flags.d
  | .v => t.flags.v = s.flags.v
  | .frame => t.frame = s.frame
  | .cell b => t.readByte b = s.readByte b

/-- The opcodes that write Z and N (R26, D22). -/
@[simp] def nzWriters : List Opcode :=
  [.inx, .iny, .dex, .dey, .inc, .dec, .lda, .ldx, .ldy, .tax, .tay, .txa, .tya, .tsx, .pla, .and, .ora, .eor, .adc,
    .sbc, .asl, .lsr, .rol, .ror, .bit, .cmp, .cpx, .cpy]

/-- The opcodes that write the cell at their operand's address (R46). -/
@[simp] def cellWriters : List Opcode := [.sta, .stx, .sty, .asl, .lsr, .rol, .ror, .inc, .dec]

/-- The instruction is named as a writer of the piece; of a cell, by its operand's address in the state before, or as a
push by SP16. -/
@[simp] def Piece.writtenBy (s : State) (ins : Instr) : Piece → Prop
  | .a => ins.opcode ∈ [Opcode.lda, .txa, .tya, .pla, .adc, .sbc, .and, .ora, .eor] ∨
      ins.opcode ∈ [Opcode.asl, .lsr, .rol, .ror] ∧ ins.operand = .implied
  | .x => ins.opcode ∈ [Opcode.ldx, .tax, .tsx, .inx, .dex]
  | .y => ins.opcode ∈ [Opcode.ldy, .tay, .iny, .dey]
  | .sp16 => ins.opcode ∈ [Opcode.pha, .pla, .txs]
  | .callStack => ins.opcode ∈ [Opcode.jsr, .rts]
  | .c => ins.opcode ∈ [Opcode.adc, .sbc, .asl, .lsr, .rol, .ror, .cmp, .cpx, .cpy, .clc, .sec]
  | .z | .n => ins.opcode ∈ nzWriters
  | .i => ins.opcode ∈ [Opcode.cli, .sei]
  | .d => ins.opcode ∈ [Opcode.cld, .sed]
  | .v => ins.opcode ∈ [Opcode.adc, .sbc, .bit, .clv]
  | .frame => ins.opcode ∈ [Opcode.drw]
  | .cell b => (ins.opcode ∈ cellWriters ∧ s.ea ins.operand = some b) ∨ (ins.opcode = .pha ∧ b = s.sp16)

/-- Every piece that differs is one that the instruction is named as a writer of. -/
def WritesOnlyNamed (ins : Instr) (s t : State) : Prop := ∀ p : Piece, p.same s t ∨ p.writtenBy s ins

section
variable {ins : Instr} {s t : State}

/-- Taking a fault writes no piece. -/
theorem WritesOnlyNamed.fault (c : FaultCode) : WritesOnlyNamed ins s (s.raiseFault c) :=
  fun p => .inl (by cases p <;> rfl)

/-- Halting writes no piece. -/
theorem WritesOnlyNamed.halt (r : HaltReason) : WritesOnlyNamed ins s (s.halt r) :=
  fun p => .inl (by cases p <;> rfl)

/-- Redirecting writes no piece. -/
theorem WritesOnlyNamed.redirect (k : Nat) : WritesOnlyNamed ins s (s.setPc k) :=
  fun p => .inl (by cases p <;> rfl)

/-- A test either faults or is followed by the writes. -/
theorem WritesOnlyNamed.of_test {α : Type} {test : Except FaultCode α} {u : α → State}
    (h : orFault s test (fun v => .next (u v)) = .next t) (hu : ∀ v, WritesOnlyNamed ins s (u v)) :
    WritesOnlyNamed ins s t := by
  cases test with
  | error c => cases h; exact .fault c
  | ok v => cases h; exact hu v

theorem WritesOnlyNamed.orElse (c : FaultCode) {p : Prop} [Decidable p] (h : p → WritesOnlyNamed ins s t) :
    WritesOnlyNamed ins s (if p then t else s.raiseFault c) := by
  split
  · next hp => exact h hp
  · exact .fault c

/-- A byte written at the operand's address is the named cell, and no other. -/
theorem WritesOnlyNamed.cellWrite (hop : ins.opcode ∈ cellWriters) (ho : inMemory ins.operand = true) (v : Byte)
    {f : Flags} (hf : WritesOnlyNamed ins s (s.setFlags f)) :
    WritesOnlyNamed ins s ((s.writeByte (s.addressOf ins.operand) v).setFlags f).advance := by
  intro p
  have hp := hf p
  cases p with
  | cell b =>
    by_cases hb : b = s.addressOf ins.operand
    · exact .inr (.inl ⟨hop, hb ▸ ea_inMemory s ho⟩)
    · exact .inl (State.readByte_writeByte_ne s v hb)
  | c | z | n | i | d | v => exact hp
  | a | x | y | sp16 | callStack | frame => exact .inl rfl

/-- A store writes its cell and no flag. -/
theorem WritesOnlyNamed.of_store {v : Byte} (h : storeByte v ins.operand s = .next t)
    (hop : ins.opcode ∈ cellWriters) : WritesOnlyNamed ins s t := by
  rw [storeByte_eq] at h
  cases h
  exact .orElse _ fun ho => .cellWrite hop ho v (f := s.flags) fun p => .inl (by cases p <;> rfl)

/-- A read-modify-write instruction writes its flags, and its cell or, where it may name it, the accumulator. -/
theorem WritesOnlyNamed.of_readModifyWrite {acc : Bool} {op : ByteOp}
    (h : readModifyWrite acc op ins.operand s = .next t) (hop : ins.opcode ∈ cellWriters)
    (hacc : acc = true → ins.opcode ∈ [Opcode.asl, .lsr, .rol, .ror])
    (hf : ∀ v, WritesOnlyNamed ins s (s.setFlags (op s.flags v).2)) : WritesOnlyNamed ins s t := by
  cases hm : inMemory ins.operand with
  | true =>
    rw [readModifyWrite_inMemory acc op s hm] at h
    cases h
    exact .cellWrite hop hm _ (hf _)
  | false =>
    by_cases ha : acc = true ∧ ins.operand = .implied
    · obtain ⟨rfl, ho⟩ := ha
      rw [ho, readModifyWrite_accumulator] at h
      cases h
      intro p
      have hp := hf s.a p
      cases p with
      | a => exact .inr (.inr ⟨hacc rfl, ho⟩)
      | c | z | n | i | d | v => exact hp
      | x | y | sp16 | callStack | frame | cell => exact .inl rfl
    · have hnone : acc = false ∨ ins.operand ≠ .implied := by
        rwa [← Bool.not_eq_true, ← not_and_or]
      rw [readModifyWrite_none acc op s hm hnone] at h
      cases h
      exact .fault _

end

/-- `Compare` names no other flag (R174). -/
theorem Flags.compare_keeps (f : Flags) (r m : Byte) :
    (f.compare r m).i = f.i ∧ (f.compare r m).d = f.d ∧ (f.compare r m).v = f.v := by
  unfold Flags.compare
  split_ifs <;> exact ⟨rfl, rfl, rfl⟩

/-- Every instruction writes only the pieces that it is named as a writer of. -/
theorem exec_writesOnlyNamed {ins : Instr} {s t : State} (h : exec ins s = .next t) : WritesOnlyNamed ins s t := by
  have key {u : State} (hu : exec ins s = .next u) (hw : WritesOnlyNamed ins s u) : WritesOnlyNamed ins s t := by
    rw [h] at hu; cases hu; exact hw
  cases ins with
  | adc o => exact key (exec_adc o s) (by
      split
      · exact .fault _
      · exact .orElse _ fun _ p => by cases p <;> simp [Instr.opcode, Flags.afterAdc, Flags.setNZ])
  | sbc o => exact key (exec_sbc o s) (by
      split
      · exact .fault _
      · exact .orElse _ fun _ p => by cases p <;> simp [Instr.opcode, Flags.afterSbc, Flags.setNZ])
  | and o | ora o | eor o | lda o | ldx o | ldy o =>
    exact .of_test h fun _ p => by cases p <;> simp [Instr.opcode, Flags.setNZ]
  | bit o => exact .of_test h fun _ p => by cases p <;> simp [Instr.opcode, Flags.afterBit]
  | cmp o | cpx o | cpy o => exact .of_test h fun _ p => by cases p <;> simp [Instr.opcode, Flags.compare_keeps]
  | sta o | stx o | sty o => exact .of_store h (by simp [Instr.opcode])
  | asl o | lsr o | rol o | ror o =>
    exact .of_readModifyWrite h (by simp [Instr.opcode]) (by simp [Instr.opcode]) fun v p => by
      cases p <;> simp [Instr.opcode, aslByte, lsrByte, rolByte, rorByte, shifted, Flags.setNZ]
  | inc o | dec o =>
    exact .of_readModifyWrite h (by simp [Instr.opcode]) nofun fun v p => by
      cases p <;> simp [Instr.opcode, incByte, decByte, Flags.setNZ]
  | bcc o l | bcs o l | beq o l | bne o l | bmi o l | bpl o l | bvc o l | bvs o l =>
    exact .of_test h fun _ => by split <;> exact .redirect _
  | jmp o l => exact .of_test h .redirect
  | jsr o l => exact key (exec_jsr o l s) (by
      cases lookupLabel s.labels l with
      | none => exact .fault _
      | some k =>
        rw [Option.elim_some]
        split
        · exact .fault _
        · exact fun p => by cases p <;> simp [Instr.opcode])
  | rts o => exact key (exec_rts o s) (by
      split
      · exact fun p => by cases p <;> simp [Instr.opcode]
      · exact .fault _)
  | pha o => exact key (exec_pha o s) (by
      split
      · exact .fault _
      · intro p
        cases p with
        | cell b =>
          by_cases hb : b = s.sp16
          · exact .inr (.inr ⟨rfl, hb⟩)
          · exact .inl (State.readByte_writeByte_ne s s.a hb)
        | _ => simp [Instr.opcode])
  | pla o => exact key (exec_pla o s) (by
      split
      · exact .fault _
      · exact fun p => by cases p <;> simp [Instr.opcode, Flags.setNZ])
  | clc o | cld o | cli o | clv o | dex o | dey o | drw o | inx o | iny o | nop o | sec o | sed o | sei o
  | tax o | tay o | tsx o | txa o | txs o | tya o | label n =>
    cases h
    exact fun p => by cases p <;> simp [Instr.opcode, Flags.setNZ, incByte, decByte]
  | brk o => exact key (exec_brk o s) (.halt .brk)
  | rti o => exact key (exec_rti o s) (.fault .rtiUnsupported)

/-- Settles O28: a piece that differs is written by a named writer. -/
theorem onlyTheNamedInstructionsWrite : Obligations.OnlyTheNamedInstructionsWrite := by
  intro ins s t h
  have hnamed := exec_writesOnlyNamed h
  exact ⟨(hnamed .a).resolve_left, (hnamed .x).resolve_left, (hnamed .y).resolve_left, (hnamed .sp16).resolve_left,
    (hnamed .callStack).resolve_left, (hnamed .c).resolve_left,
    fun hzn => hzn.elim (hnamed .z).resolve_left (hnamed .n).resolve_left, (hnamed .i).resolve_left,
    (hnamed .d).resolve_left, (hnamed .v).resolve_left⟩

/-- Settles O29: a cell that differs is written by a named writer. -/
theorem onlyTheNamedByteIsStored : Obligations.OnlyTheNamedByteIsStored :=
  fun _ _ _ b h => (exec_writesOnlyNamed h (.cell b)).resolve_left

/-! ## The frame indication (R15, R240) -/

/-- Settles O31: each step begins by deasserting the indication, which only DRW writes, and the end of a step keeps. -/
theorem frameIndicationIsWrittenByDrwAndReadByNone : Obligations.FrameIndicationIsWrittenByDrwAndReadByNone := by
  refine ⟨fun s b => rfl, fun s t h => ?_⟩
  obtain ⟨-, ⟨hi, rfl⟩ | ⟨ins, u, hi, hu, rfl⟩⟩ := step_cases h
  · exact ⟨nofun, fun ⟨o, ho⟩ => nomatch hi.symm.trans ho⟩
  · have hframe : u.finishStep.frame = u.frame := by rw [finishStep_frame]
    rw [hframe, hi]
    constructor
    · intro hasserted
      obtain hsame | hdrw := exec_writesOnlyNamed hu .frame
      · exact nomatch hasserted.symm.trans hsame
      · refine ⟨ins.operand, ?_⟩
        exact congrArg some (Instr.eq_build_of_opcode (List.mem_singleton.mp hdrw))
    · rintro ⟨o, ho⟩
      cases ho
      cases hu
      rfl

end Sys2Proof.Machine

namespace Sys2Proof.Machine

/-! ## Noninterference of the I flag and of the count of draws (R27, R47, R48, R260) -/

/-- The state with another I flag and another count of draws. -/
def State.disguised (s : State) (b : Bool) (n : Nat) : State :=
  { s with flags := { s.flags with i := b }, drawIndex := n }

/-- What an instruction makes of the I flag: CLI and SEI write it, every other one keeps it. -/
def iFlagAfter (b : Bool) : Instr → Bool
  | .cli _ => false
  | .sei _ => true
  | _ => b

/-- The answer with its next state changed. -/
def mapNext (g : State → State) : Result → Result
  | .next t => .next (g t)
  | .fault f => .fault f
  | .refused r => .refused r

section
variable (s : State) (b : Bool) (n : Nat)

theorem disguised_readOperand (o : Operand) : (s.disguised b n).readOperand o = s.readOperand o := by
  cases o <;> rfl

theorem disguised_storeAddr (o : Operand) : (s.disguised b n).storeAddr o = s.storeAddr o := by
  cases o <;> rfl

theorem disguised_rmwTarget (acc : Bool) (o : Operand) : (s.disguised b n).rmwTarget acc o = s.rmwTarget acc o := by
  cases o <;> rfl

theorem disguised_target (l : Text) : (s.disguised b n).target l = s.target l := rfl

end

/-- A test that finds the same in two states is followed by corresponding answers if what follows corresponds. -/
theorem orFault_mapNext {α : Type} {s s' : State} {test test' : Except FaultCode α} {k k' : α → Result}
    {g : State → State} (htest : test' = test) (hfault : ∀ c, s'.raiseFault c = g (s.raiseFault c))
    (hk : ∀ v, k' v = mapNext g (k v)) : orFault s' test' k' = mapNext g (orFault s test k) := by
  subst htest
  cases test' with
  | error c => exact congrArg Host.Outcome.next (hfault c)
  | ok v => exact hk v

/-- A choice that both states make alike corresponds if each of its ways does. -/
theorem ite_mapNext {p : Prop} [Decidable p] {g : State → State} {r r' q q' : Result} (hr : r' = mapNext g r)
    (hq : q' = mapNext g q) : (if p then r' else q') = mapNext g (if p then r else q) := by
  split
  · exact hr
  · exact hq

/-- `Compare` keeps the I flag and does not read it (R174). -/
theorem compare_with_i (f : Flags) (b : Bool) (r m : Byte) :
    Flags.compare { f with i := b } r m = { f.compare r m with i := b } := by
  unfold Flags.compare
  split_ifs <;> rfl

theorem branch_disguised (taken : Bool) (l : Text) (s : State) (b : Bool) (n : Nat) :
    branch taken l (s.disguised b n) = mapNext (fun t => t.disguised b n) (branch taken l s) :=
  orFault_mapNext (disguised_target s b n l) (fun _ => rfl) fun _ => by cases taken <;> rfl

/-- No instruction reads the I flag or the count of draws. -/
theorem exec_disguised (ins : Instr) (s : State) (b : Bool) (n : Nat) :
    exec ins (s.disguised b n) = mapNext (fun t => t.disguised (iFlagAfter b ins) n) (exec ins s) := by
  cases ins with
  | adc o | sbc o =>
    exact ite_mapNext rfl (orFault_mapNext (disguised_readOperand s b n o) (fun _ => rfl) fun _ => rfl)
  | and o | ora o | eor o | bit o | lda o | ldx o | ldy o =>
    exact orFault_mapNext (disguised_readOperand s b n o) (fun _ => rfl) fun _ => rfl
  | cmp o | cpx o | cpy o =>
    exact orFault_mapNext (disguised_readOperand s b n o) (fun _ => rfl) fun _ =>
      congrArg (fun f : Flags => (.next ((s.disguised b n).setFlags f).advance : Result)) (compare_with_i s.flags b _ _)
  | sta o | stx o | sty o =>
    exact orFault_mapNext (disguised_storeAddr s b n o) (fun _ => rfl) fun _ => rfl
  | asl o | lsr o | rol o | ror o | inc o | dec o =>
    exact orFault_mapNext (disguised_rmwTarget s b n _ o) (fun _ => rfl) fun t => by cases t <;> rfl
  | bcc o l | bcs o l | beq o l | bne o l | bmi o l | bpl o l | bvc o l | bvs o l =>
    exact branch_disguised _ l s b n
  | jmp o l => exact orFault_mapNext (disguised_target s b n l) (fun _ => rfl) fun _ => rfl
  | jsr o l => exact orFault_mapNext (disguised_target s b n l) (fun _ => rfl) fun _ => ite_mapNext rfl rfl
  | rts o =>
    cases hcs : s.callStack with
    | nil => rw [exec_rts_empty hcs, exec_rts_empty (s := s.disguised b n) hcs]; rfl
    | cons j cs => rw [exec_rts_return hcs, exec_rts_return (s := s.disguised b n) hcs]; rfl
  | pha o | pla o => exact ite_mapNext rfl rfl
  | clc o | cld o | cli o | clv o | dex o | dey o | drw o | inx o | iny o | nop o | sec o | sed o | sei o
  | tax o | tay o | tsx o | txa o | txs o | tya o | label n | brk o | rti o => rfl

/-- What an instruction answers, with another I flag and another count of draws in the state before. -/
theorem exec_disguised_next {ins : Instr} {s t : State} (h : exec ins s = .next t) (b : Bool) (n : Nat) :
    exec ins (s.disguised b n) = .next (t.disguised (iFlagAfter b ins) n) := by
  rw [exec_disguised, h, mapNext]

/-- The I flag after an instruction, and that it draws nothing. -/
theorem exec_i_and_drawIndex {ins : Instr} {s t : State} (h : exec ins s = .next t) :
    t.flags.i = iFlagAfter s.flags.i ins ∧ t.drawIndex = s.drawIndex := by
  have hself := exec_disguised_next h s.flags.i s.drawIndex
  have ht : t = t.disguised (iFlagAfter s.flags.i ins) s.drawIndex := Host.Outcome.next.inj (h.symm.trans hself)
  have hi := congrArg (fun u => u.flags.i) ht
  have hdraw := congrArg State.drawIndex ht
  exact ⟨hi, hdraw⟩

/-- The end of a step does not read the I flag. -/
theorem finishStep_withI (s : State) (b : Bool) : (s.withI b).finishStep = s.finishStep.withI b := by
  have hstatus : (s.withI b).status = s.status := rfl
  unfold State.finishStep
  rw [hstatus]
  cases s.status <;> rfl

/-- Settles O32: the fetch, the instruction and the end of the step are the same but in the I flag. -/
theorem interruptDisableMasksNothing : Obligations.InterruptDisableMasksNothing := by
  intro s t b h
  obtain ⟨hr, ⟨hi, rfl⟩ | ⟨ins, u, hi, hu, rfl⟩⟩ := step_cases h
  · exact ⟨b, step_end (s := s.withI b) hr hi⟩
  · obtain ⟨-, hdraw⟩ := exec_i_and_drawIndex hu
    have hwithI : u.disguised (iFlagAfter b ins) s.drawIndex = u.withI (iFlagAfter b ins) :=
      congrArg (u.disguised (iFlagAfter b ins)) hdraw.symm
    have hu' := exec_disguised_next hu b s.drawIndex
    rw [hwithI] at hu'
    exact ⟨iFlagAfter b ins, finishStep_withI u _ ▸ step_fetched (s := s.withI b) hr hi hu'⟩

/-- The end of a step leaves every byte but the two platform cells. -/
theorem readByte_finishStep_ne (s : State) {b : Half} (he : b ≠ Config.entropyAddr) (hk : b ≠ Config.keyAddr) :
    s.finishStep.readByte b = s.readByte b := by
  unfold State.finishStep
  split
  · rfl
  · exact s.readByte_postInstruction_ne he hk
  · exact s.readByte_postInstruction_ne he hk

/-- The count of draws reaches the two platform cells and itself only, at the end of a step. -/
theorem finishStep_setDrawIndex (s : State) (n : Nat) : ∃ m k,
    (s.setDrawIndex n).finishStep = { s.finishStep with mem := m, drawIndex := k } ∧
    ∀ b, b ≠ Config.entropyAddr → b ≠ Config.keyAddr → m.read b = s.finishStep.readByte b := by
  refine ⟨(s.setDrawIndex n).finishStep.mem, (s.setDrawIndex n).finishStep.drawIndex, ?_, fun b he hk => ?_⟩
  · rw [finishStep_frame s]
    exact finishStep_frame (s.setDrawIndex n)
  · exact (readByte_finishStep_ne _ he hk).trans (readByte_finishStep_ne s he hk).symm

/-- Settles O33: the fetch and the instruction are the same but in the count of draws, and the end of the step reads it
for the two platform cells only. -/
theorem drawsReachOnlyThePlatformCells : Obligations.DrawsReachOnlyThePlatformCells := by
  intro s t n h
  obtain ⟨hr, ⟨hi, rfl⟩ | ⟨ins, u, hi, hu, rfl⟩⟩ := step_cases h
  · exact ⟨_, step_end (s := s.setDrawIndex n) hr hi, ⟨rfl, rfl, rfl, rfl, rfl, rfl⟩, rfl, rfl, rfl, rfl, rfl,
      fun _ _ _ => rfl⟩
  · obtain ⟨hiFlag, -⟩ := exec_i_and_drawIndex hu
    have hu' := exec_disguised_next hu s.flags.i n
    have hsame : u.disguised (iFlagAfter s.flags.i ins) n = u.setDrawIndex n :=
      congrArg (u.disguised · n) hiFlag.symm
    rw [hsame] at hu'
    obtain ⟨m, k, hend, hbytes⟩ := finishStep_setDrawIndex u n
    have hstep := step_fetched (s := s.setDrawIndex n) hr hi hu'
    rw [hend] at hstep
    exact ⟨_, hstep, ⟨rfl, rfl, rfl, rfl, rfl, rfl⟩, rfl, rfl, rfl, rfl, rfl, hbytes⟩

end Sys2Proof.Machine
